-- ==== Sys2Proof/Word.lean ====
section
/-! DEFINITION. The machine word and byte, and two readings of a word. -/

namespace Sys2Proof

/-- A byte of a memory. -/
abbrev Byte := BitVec 8

/-- A "word" is W = 32 bits (00_scope.md R7). -/
abbrev Word := BitVec 32

end Sys2Proof
end

