-- ==== Sys2Proof/Syntax.lean ====
section
/-! DEFINITION. The eighteen commands (30_encoding.md R92). A command word carries no operand (R93). -/

namespace Sys2Proof

/-- One constructor per row of spec/opcode_table.json, in the table's order. -/
inductive Instr where
  /-- NOP: nothing; completes (40_control.md R101). -/
  | nop
  /-- XCHG: exchange source and destination buffers (40_control.md R102). -/
  | xchg
  /-- KGEN: generate the RC or RRC kernel into C (41_txfilter.md R115). -/
  | kgen
  /-- TXFILT: transmit filter selected by CFG.FKIND (41_txfilter.md R120). -/
  | txfilt
  /-- TXHOLD: rectangular transmit filter, zero-order hold (41_txfilter.md R116). -/
  | txhold
  /-- TXSHAPE: zero-insert upsample, convolve with C, trim (41_txfilter.md R119). -/
  | txshape
  /-- RXFILT: reception filter selected by CFG.ENC and CFG.FKIND (42_rxfilter.md R138). -/
  | rxfilt
  /-- RXMATCH: matched filter (42_rxfilter.md R133). -/
  | rxmatch
  /-- RXSMOOTH: causal exponential smoothing (42_rxfilter.md R135). -/
  | rxsmooth
  /-- RXMAVG: centred moving average (42_rxfilter.md R137). -/
  | rxmavg
  /-- EYESRCH: search the offset with the largest eye opening (43_clock_recovery.md R142). -/
  | eyesrch
  /-- DECIM: downsample X at offset BESTOFF (43_clock_recovery.md R144). -/
  | decim
  /-- RECOVER: EYESRCH then DECIM (43_clock_recovery.md R145). -/
  | recover
  /-- EYEMET: eye-opening metrics over all offsets (44_eye_metrics.md R151). -/
  | eyemet
  /-- THRESH: adaptive threshold by 2-means (45_decoder.md R163). -/
  | thresh
  /-- DECIDE: samples to bits with the threshold in THRESH (45_decoder.md R168). -/
  | decideBits
  /-- DECODE: THRESH then DECIDE (45_decoder.md R169). -/
  | decodeBits
  /-- BRESIZE: resize the bit sequence to TLEN bits (45_decoder.md R170). -/
  | bresize
  deriving DecidableEq, Repr

/-- All eighteen, in the table's order. -/
def Instr.all : List Instr :=
  [.nop, .xchg, .kgen, .txfilt, .txhold, .txshape, .rxfilt, .rxmatch, .rxsmooth, .rxmavg, .eyesrch, .decim,
   .recover, .eyemet, .thresh, .decideBits, .decodeBits, .bresize]

end Sys2Proof
end

