-- ==== Sys2Proof/WellFormed.lean ====
section
/-! DEFINITION. Well-formedness. A command has no operand field, so every term of `Instr` is well formed
(30_encoding.md R93); what can be ill formed is a command WORD, whose two fields R90 and R94 restrict. -/

namespace Sys2Proof

/-- No command carries an operand that could be out of range (30_encoding.md R93). -/
def Instr.wellFormed (_ : Instr) : Bool := true

/-- The ZERO field of format CMD, bits 31:8, must be 0 (30_encoding.md R90). -/
def zeroFieldClear (w : Word) : Bool := w.extractLsb' 8 24 == 0#24

/-- The eighteen OP values that 60_exceptions.md R181 lists. -/
def legalOpcodes : List (BitVec 8) :=
  [0x00#8, 0x01#8, 0x10#8, 0x11#8, 0x12#8, 0x13#8, 0x14#8, 0x15#8, 0x16#8, 0x17#8, 0x20#8, 0x21#8, 0x22#8, 0x23#8,
   0x30#8, 0x31#8, 0x32#8, 0x33#8]

/-- `w[7:0]` is one of the eighteen OP values (30_encoding.md R94). -/
def opFieldKnown (w : Word) : Bool := legalOpcodes.contains (w.extractLsb' 0 8)

/-- A command word is illegal when `w[31:8]` is not 0 or `w[7:0]` is not one of the eighteen (30_encoding.md R94). -/
def wordWellFormed (w : Word) : Bool := zeroFieldClear w && opFieldKnown w

end Sys2Proof
end

