-- ==== Sys2Proof/Decode.lean ====
section
/-! DEFINITION. Command words: the decoder and, after it, the encoder (30_encoding.md R90 to R95). -/

namespace Sys2Proof

/-- The command an opcode byte selects: bits 7:4 the family, bits 3:0 the member (30_encoding.md R91, R92). -/
def decodeOp (op : BitVec 8) : Option Instr :=
  match op.toNat with
  | 0x00 => some .nop
  | 0x01 => some .xchg
  | 0x10 => some .kgen
  | 0x11 => some .txfilt
  | 0x12 => some .txhold
  | 0x13 => some .txshape
  | 0x14 => some .rxfilt
  | 0x15 => some .rxmatch
  | 0x16 => some .rxsmooth
  | 0x17 => some .rxmavg
  | 0x20 => some .eyesrch
  | 0x21 => some .decim
  | 0x22 => some .recover
  | 0x23 => some .eyemet
  | 0x30 => some .thresh
  | 0x31 => some .decideBits
  | 0x32 => some .decodeBits
  | 0x33 => some .bresize
  | _ => none

/-- The command a 32-bit word selects; none for an illegal word (30_encoding.md R92, R94). -/
def decode (w : Word) : Option Instr :=
  if w.extractLsb' 8 24 = 0#24 then decodeOp (w.extractLsb' 0 8) else none

/-- The `match` column of 30_encoding.md R92. -/
def encode : Instr → Word
  | .nop => 0x00000000#32
  | .xchg => 0x00000001#32
  | .kgen => 0x00000010#32
  | .txfilt => 0x00000011#32
  | .txhold => 0x00000012#32
  | .txshape => 0x00000013#32
  | .rxfilt => 0x00000014#32
  | .rxmatch => 0x00000015#32
  | .rxsmooth => 0x00000016#32
  | .rxmavg => 0x00000017#32
  | .eyesrch => 0x00000020#32
  | .decim => 0x00000021#32
  | .recover => 0x00000022#32
  | .eyemet => 0x00000023#32
  | .thresh => 0x00000030#32
  | .decideBits => 0x00000031#32
  | .decodeBits => 0x00000032#32
  | .bresize => 0x00000033#32

/-- `w[7:0]`: the part of a command word that OPLATCH keeps (10_state.md R58, R62). -/
def opField (w : Word) : BitVec 8 := w.extractLsb' 0 8

/-- The command my decoder reads from a table word of `nbits` bits; the bits above `nbits` are 0. A command is one
32-bit word, the data of one CMD write (30_encoding.md R90). -/
def decodeTableWord (nbits w : Nat) : Option Instr := decode (BitVec.ofNat 32 (w % 2 ^ nbits))

end Sys2Proof
end

