-- ==== Sys2Proof/Config.lean ====
section
/-! DEFINITION. What the implementation fixes (00_scope.md R6) and the free values, which the spec leaves open:
opaque constants with no body, so that no proof sees a value of them. -/

namespace Sys2Proof

/-- The two kernels KGEN can generate, `kind in {RC, RRC}` (41_txfilter.md R111). -/
inductive KernelKind where
  | rc
  | rrc
  deriving DecidableEq, Repr

namespace Config

/-- DEPTH: words in each of the two sample buffers (00_scope.md R6). -/
abbrev depth : Nat := 4096
/-- BDEPTH: bits in the bit memory (00_scope.md R6). -/
abbrev bdepth : Nat := 4096
/-- SMAX: largest legal samples-per-symbol (00_scope.md R6). -/
abbrev smax : Nat := 64
/-- LMAX: words in the coefficient memory (00_scope.md R6). -/
abbrev lmax : Nat := 385
/-- ONE: the integer of the word that means 1.0 (00_scope.md R6). -/
abbrev one : Nat := 16777216
/-- MAXW: largest signed word value (00_scope.md R6). -/
abbrev maxw : Int := 2147483647
/-- MINW: smallest signed word value (00_scope.md R6). -/
abbrev minw : Int := -2147483648
/-- ID: the identification constant, "PSF1" in ASCII (00_scope.md R6, 10_state.md R24). -/
abbrev idWord : Word := 0x50534631#32

/-- FREE VALUE (log 3). The byte that address `a` of a memory holds while it is unspecified, in the period of the
memory's life numbered `epoch` (10_state.md R55, R56, R57; 93_implementation_defined.md U1 to U4, U7, U8). Every event
that makes contents unspecified starts a period with a number of its own. -/
opaque unspecifiedByte : (epoch : Nat) → (a : Nat) → Byte

/-- FREE VALUE (log 4). The data of the `n`-th bus answer that the spec calls unspecified (10_state.md R63, 20_memory.md
R73; 93_implementation_defined.md U5, U6). -/
opaque unspecifiedWord : (n : Nat) → Word

/-- FREE VALUE (log 7). The coefficient generator on the first half of the taps: `TapGen(kind, S, A)[k]` for k in 0..3S
(41_txfilter.md R111; 93_implementation_defined.md IP1). -/
opaque tapHalf : (kind : KernelKind) → (S A k : Nat) → Word

end Config
end Sys2Proof
end

