-- ==== Sys2Proof/Machine/Arith.lean ====
section
/-! DEFINITION. The arithmetic primitives (00_scope.md R9 to R14): exact on integers. -/

namespace Sys2Proof.Machine

/-- `rnd(a) = floor((a + 2^23) / 2^24)`: to nearest, ties toward plus infinity (00_scope.md R9). -/
def rnd (a : Int) : Int := (a + 8388608) / 16777216

/-- `sat(v)`: saturation to a word (00_scope.md R10). -/
def sat (v : Int) : Int :=
  if v > Config.maxw then Config.maxw else if v < Config.minw then Config.minw else v

/-- `sat(v)` is evaluated with `v` outside [MINW, MAXW]: the command saturates (00_scope.md R10). -/
def clips (v : Int) : Bool := decide (v > Config.maxw) || decide (v < Config.minw)

/-- `tdiv(s, n)`, `n > 0`: division truncating toward zero (00_scope.md R12). -/
def tdiv (s n : Int) : Int := if 0 ≤ s then s / n else -((-s) / n)

/-- `sabs(x)`: saturating absolute value of a word value (00_scope.md R13). -/
def sabs (x : Int) : Int := if 0 ≤ x then x else if x = Config.minw then Config.maxw else -x

/-- `f 0 + f 1 + ... + f (n - 1)`, exact (00_scope.md R11). -/
def sumTo : Nat → (Nat → Int) → Int
  | 0, _ => 0
  | n + 1, f => sumTo n f + f n

/-- `min(none, v) = v` (00_scope.md R15). -/
def minSeen (o : Option Int) (v : Int) : Option Int :=
  match o with
  | none => some v
  | some w => some (min w v)

/-- `max(none, v) = v` (00_scope.md R15). -/
def maxSeen (o : Option Int) (v : Int) : Option Int :=
  match o with
  | none => some v
  | some w => some (max w v)

/-- `(v or 0)` is 0 when `v` is none and `v` otherwise (00_scope.md R15). -/
def orZero (o : Option Int) : Int := o.getD 0

end Sys2Proof.Machine
end

