-- ==== Sys2Proof/Machine/State.lean ====
section
/-! DEFINITION. The state of PSF1 (10_state.md R20), the reasons a step can stop, and reset (R64). Plain data. -/

namespace Sys2Proof.Machine

/-- STATUS (10_state.md R26), flag by flag. Bit 7 and bits 31:12 are reserved and read 0. -/
structure Status where
  /-- bit 0, R27 -/
  busy : Bool
  /-- bit 1, R28 -/
  done : Bool
  /-- bit 2, R29 -/
  err : Bool
  /-- bit 3, sticky, R30 -/
  sat : Bool
  /-- bit 4, sticky, R31 -/
  ebusy : Bool
  /-- bit 5, R32 -/
  short : Bool
  /-- bit 6, R34 -/
  bank : Bool
  /-- bits 11:8, R29 -/
  errcode : BitVec 4
  deriving DecidableEq, Repr

/-- IEN, bit 1 DONE_IE, bit 2 ERR_IE (10_state.md R35). -/
structure Ien where
  doneIe : Bool
  errIe : Bool
  deriving DecidableEq, Repr

/-- CFG, bits 1:0 FKIND, bits 5:4 ENC (10_state.md R36 to R38). -/
structure Cfg where
  fkind : BitVec 2
  enc : BitVec 2
  deriving DecidableEq, Repr

/-- KM_STAT, bits 7:0 ITERS, bit 8 CONV (10_state.md R51). -/
structure KmStat where
  iters : BitVec 8
  conv : Bool
  deriving DecidableEq, Repr

/-- EYE_STAT, bits 2:0 LO_SEEN HI_SEEN FOUND, bits 28:16 VCNT (10_state.md R54). -/
structure EyeStat where
  found : Bool
  hiSeen : Bool
  loSeen : Bool
  vcnt : BitVec 13
  deriving DecidableEq, Repr

/-- The registers of 10_state.md R23 that hold a value, less STATUS: the implemented bits of each. ID is a constant
(R24) and CMD stores nothing (R25). -/
structure Regs where
  ien : Ien
  cfg : Cfg
  sps : BitVec 7
  alpha : Word
  xlen : BitVec 13
  ylen : BitVec 13
  clen : BitVec 9
  blen : BitVec 13
  tlen : BitVec 13
  smoothA : Word
  kmIter : BitVec 8
  kmEps : Word
  thresh : Word
  centLo : Word
  centHi : Word
  kmStat : KmStat
  bestOff : BitVec 7
  eyeOpen : Word
  eyeMinHigh : Word
  eyeMaxLow : Word
  eyeStat : EyeStat
  emBestOff : BitVec 7
  emMaxOpen : Word
  emMinOpen : Word
  emMinHigh : Word
  emMaxLow : Word
  errInfo : Word
  deriving DecidableEq, Repr

/-- A memory of PSF1 in its one canonical form: listed cells at strictly rising addresses. An address that is not listed
holds an unspecified value, the free value of (epoch, address), which no listed cell is compared with (log 3). BUF0,
BUF1 and C are addressed by byte, word i at 4i to 4i+3 (20_memory.md R76, log 5); B is addressed by bit. -/
structure Memory where
  cells : List Host.Cell
  epoch : Nat
  deriving DecidableEq, Repr

/-- One bus transaction as the host drives it (20_memory.md R70). -/
structure BusReq where
  we : Bool
  addr : BitVec 16
  size : BitVec 2
  wdata : Word
  deriving DecidableEq, Repr

/-- What happens next outside the command rules (log 1). -/
inductive Event where
  /-- The host issues a bus transaction (20_memory.md R70). -/
  | bus (r : BusReq)
  /-- The engine's completion step falls here, if BUSY = 1 (10_state.md R61). -/
  | engine
  /-- `rst` is sampled high, or goes low (70_reset_and_hazards.md R200). -/
  | rst (high : Bool)
  deriving DecidableEq, Repr

/-- How PSF1 answered in the step just taken: `ack`, `err`, `rdata` (20_memory.md R70, log 9). -/
inductive Reply where
  /-- `ack` low: no transaction was answered. -/
  | none
  /-- A write was answered, `err` = 0. -/
  | written
  /-- A read was answered with this `rdata`, `err` = 0. -/
  | read (rdata : Word)
  /-- Answered with `err` = 1 and an unspecified `rdata` (R73). -/
  | busError (rdata : Word)
  deriving DecidableEq, Repr

/-- The whole state of PSF1 (10_state.md R20), its pins, and the model's own input list and free-value counter. -/
structure State where
  status : Status
  regs : Regs
  /-- BUF0 (R55). -/
  buf0 : Memory
  /-- BUF1 (R55). -/
  buf1 : Memory
  /-- C (R56). -/
  coef : Memory
  /-- B (R57). -/
  bits : Memory
  /-- OPLATCH (R58). -/
  opLatch : Option (BitVec 8)
  /-- The level of the pin `rst` (70_reset_and_hazards.md R200). -/
  rst : Bool
  /-- The model's own: the number of the next unused free value (log 3, log 4). -/
  free : Nat
  /-- The model's own: what happens next, oldest first (log 1). -/
  events : List Event
  /-- The answer of the step just taken (log 9). -/
  reply : Reply
  deriving DecidableEq, Repr

/-- The reasons a step can stop. -/
inductive Fault where
  /-- Raised by the engine's step when BUSY = 1 and OPLATCH holds no opcode of the table. No state that a run reaches
  is like that (10_state.md R21: "when BUSY = 1 it holds exactly one accepted command"). Safe: the model stops where the
  spec says nothing (log 6). -/
  | badLatch
  deriving DecidableEq, Repr

/-- The reasons a step can be refused. -/
inductive Refusal where
  /-- Raised by an arm of exec for an instruction without a meaning. No arm does. Safe. -/
  | notModelled (mnemonic : String)
  deriving DecidableEq, Repr

/-- The machine right after reset: "The first state after `rst` goes low is exactly the state of R64"
(70_reset_and_hazards.md R200; 10_state.md R23, R64). The memories list nothing: every word and bit is unspecified. -/
def State.reset : State where
  status := { busy := false, done := false, err := false, sat := false, ebusy := false, short := false, bank := false,
              errcode := 0#4 }
  regs := { ien := { doneIe := false, errIe := false }, cfg := { fkind := 0#2, enc := 0#2 }, sps := 0#7, alpha := 0#32,
            xlen := 0#13, ylen := 0#13, clen := 0#9, blen := 0#13, tlen := 0#13, smoothA := 0x00CCCCCD#32,
            kmIter := 10#8, kmEps := 17#32, thresh := 0#32, centLo := 0#32, centHi := 0#32,
            kmStat := { iters := 0#8, conv := false }, bestOff := 0#7, eyeOpen := 0#32, eyeMinHigh := 0#32,
            eyeMaxLow := 0#32, eyeStat := { found := false, hiSeen := false, loSeen := false, vcnt := 0#13 },
            emBestOff := 0#7, emMaxOpen := 0#32, emMinOpen := 0#32, emMinHigh := 0#32, emMaxLow := 0#32,
            errInfo := 0#32 }
  buf0 := { cells := [], epoch := 0 }
  buf1 := { cells := [], epoch := 1 }
  coef := { cells := [], epoch := 2 }
  bits := { cells := [], epoch := 3 }
  opLatch := none
  rst := false
  free := 4
  events := []
  reply := .none

end Sys2Proof.Machine
end

