-- ==== Sys2Proof/Machine/Flags.lean ====
section
/-! DEFINITION. STATUS and the other registers made of fields, as words; the write-1-to-clear rule; the error codes; the
interrupt line (10_state.md sections 3 and 4, 60_exceptions.md R180, R190). -/

namespace Sys2Proof.Machine

/-- The four command errors (60_exceptions.md R180). -/
inductive ErrCode where
  | illegalOp
  | badCfg
  | badLen
  | noKernel
  deriving DecidableEq, Repr

/-- The value written to STATUS.ERRCODE (60_exceptions.md R180). -/
def errNumber : ErrCode → BitVec 4
  | .illegalOp => 1#4
  | .badCfg => 2#4
  | .badLen => 3#4
  | .noKernel => 4#4

/-- One flag as a bit. -/
def flagBit (b : Bool) : BitVec 1 := BitVec.ofBool b

/-- STATUS as the word a host reads (10_state.md R26). -/
def Status.toWord (f : Status) : Word :=
  0#20 ++ f.errcode ++ 0#1 ++ flagBit f.bank ++ flagBit f.short ++ flagBit f.ebusy ++ flagBit f.sat ++ flagBit f.err ++
    flagBit f.done ++ flagBit f.busy

/-- IEN as a word (10_state.md R35). -/
def Ien.toWord (f : Ien) : Word := 0#29 ++ flagBit f.errIe ++ flagBit f.doneIe ++ 0#1

/-- The implemented bits of a word written to IEN (10_state.md R35). -/
def ienOfWord (v : Word) : Ien := { doneIe := v.getLsbD 1, errIe := v.getLsbD 2 }

/-- CFG as a word (10_state.md R36). -/
def Cfg.toWord (f : Cfg) : Word := 0#26 ++ f.enc ++ 0#2 ++ f.fkind

/-- The implemented bits of a word written to CFG (10_state.md R36). -/
def cfgOfWord (v : Word) : Cfg := { fkind := v.extractLsb' 0 2, enc := v.extractLsb' 4 2 }

/-- KM_STAT as a word (10_state.md R51). -/
def KmStat.toWord (f : KmStat) : Word := 0#23 ++ flagBit f.conv ++ f.iters

/-- EYE_STAT as a word (10_state.md R54). -/
def EyeStat.toWord (f : EyeStat) : Word :=
  0#3 ++ f.vcnt ++ 0#13 ++ flagBit f.loSeen ++ flagBit f.hiSeen ++ flagBit f.found

/-- The return from a command error: ERR <- 0, ERRCODE <- 0, ERRINFO unchanged (60_exceptions.md R187). -/
def Status.clearErr (f : Status) : Status := { f with err := false, errcode := 0#4 }

/-- A host write of `v` to STATUS while idle clears DONE, ERR with ERRCODE, SAT and EBUSY where `v` has a 1; all other
bits of `v` are ignored (10_state.md R26). -/
def Status.writeOneToClear (f : Status) (v : Word) : Status :=
  let f := if v.getLsbD 1 then { f with done := false } else f
  let f := if v.getLsbD 2 then f.clearErr else f
  let f := if v.getLsbD 3 then { f with sat := false } else f
  if v.getLsbD 4 then { f with ebusy := false } else f

/-- The flags after a completion: BUSY <- 0, DONE <- 1, SAT and SHORT set where the effect says so (10_state.md R61). -/
def Status.completed (f : Status) (saturated short : Bool) : Status :=
  { f with busy := false, done := true, sat := f.sat || saturated, short := f.short || short }

/-- The flags after an acceptance: BUSY <- 1, DONE <- 0, SHORT <- 0 (10_state.md R62 step 4). -/
def Status.accepted (f : Status) : Status := { f with busy := true, done := false, short := false }

/-- The flags after a command-error entry: ERR <- 1, ERRCODE <- e (60_exceptions.md R186). -/
def Status.errored (f : Status) (e : ErrCode) : Status := { f with err := true, errcode := errNumber e }

/-- `irq = (STATUS.DONE and IEN.DONE_IE) or (STATUS.ERR and IEN.ERR_IE)` (60_exceptions.md R190). -/
def State.irq (s : State) : Bool := (s.status.done && s.regs.ien.doneIe) || (s.status.err && s.regs.ien.errIe)

end Sys2Proof.Machine
end

