-- ==== Sys2Proof/Machine/Ops.lean ====
section
/-! DEFINITION. The named operations: over memories, over the buffers seen through the bank bit, and the shared events of
every command: the command-error entry and the return from it, acceptance, completion, reset. -/

namespace Sys2Proof.Machine

/-! ### Memories -/

/-- What is listed at an address. -/
def cellAt : List Host.Cell → Nat → Option Byte
  | [], _ => none
  | (b, v) :: rest, a => if b = a then some v else cellAt rest a

/-- The cells with `v` at `a`, in rising order of address. -/
def putCell : List Host.Cell → Nat → Byte → List Host.Cell
  | [], a, v => [(a, v)]
  | (b, w) :: rest, a, v =>
    if a < b then (a, v) :: (b, w) :: rest else if a = b then (a, v) :: rest else (b, w) :: putCell rest a v

/-- The canonical form of a memory: addresses strictly rising. -/
abbrev Memory.wf (m : Memory) : Prop := m.cells.Pairwise (fun p q => p.1 < q.1)

/-- What an address that is not listed reads as: an unspecified value, a free value (10_state.md R55 to R57; log 3). -/
def unlistedByte (epoch a : Nat) : Byte := Config.unspecifiedByte epoch a

/-- A read of one byte. -/
def Memory.byte (m : Memory) (a : Nat) : Byte := (cellAt m.cells a).getD (unlistedByte m.epoch a)

/-- A write of one byte. -/
def Memory.putByte (m : Memory) (a : Nat) (v : Byte) : Memory := { m with cells := putCell m.cells a v }

/-- Byte `j` of a word, the lowest at `j = 0` (20_memory.md R76). -/
def wordByte (w : Word) (j : Nat) : Byte := w.extractLsb' (8 * j) 8

/-- The word at byte address `a`: byte lane i carries bits 8i+7 to 8i (20_memory.md R76). -/
def Memory.word (m : Memory) (a : Nat) : Word := m.byte (a + 3) ++ m.byte (a + 2) ++ m.byte (a + 1) ++ m.byte a

/-- A write of one word at byte address `a`. -/
def Memory.putWord (m : Memory) (a : Nat) (w : Word) : Memory :=
  (((m.putByte a (wordByte w 0)).putByte (a + 1) (wordByte w 1)).putByte (a + 2) (wordByte w 2)).putByte (a + 3)
    (wordByte w 3)

/-- The cells of consecutive words from byte address `a` on. -/
def wordCells : Nat → List Word → List Host.Cell
  | _, [] => []
  | a, w :: ws =>
    (a, wordByte w 0) :: (a + 1, wordByte w 1) :: (a + 2, wordByte w 2) :: (a + 3, wordByte w 3) :: wordCells (a + 4) ws

/-- A memory whose first words are `ws` and whose other words are unspecified from now on, in period `epoch`. -/
def memOfWords (ws : List Word) (epoch : Nat) : Memory := { cells := wordCells 0 ws, epoch := epoch }

/-- The byte that holds one bit of the bit memory (log 5). -/
def bitByte (b : Bool) : Byte := if b then 1#8 else 0#8

/-- The cells of consecutive bits from index `i` on. -/
def bitCells : Nat → List Bool → List Host.Cell
  | _, [] => []
  | i, b :: bs => (i, bitByte b) :: bitCells (i + 1) bs

/-- A bit memory whose first bits are `bs` and whose other bits are unspecified from now on, in period `epoch`. -/
def memOfBits (bs : List Bool) (epoch : Nat) : Memory := { cells := bitCells 0 bs, epoch := epoch }

/-- B[i] of a bit memory. -/
def Memory.bit (m : Memory) (i : Nat) : Bool := (m.byte i).getLsbD 0

/-- A memory of which every word is unspecified. -/
def unspecifiedMemory (epoch : Nat) : Memory := { cells := [], epoch := epoch }

/-- The word of a 32-bit two's-complement integer, and of an unsigned one (00_scope.md R8). -/
def wordOfInt (v : Int) : Word := BitVec.ofInt 32 v

/-! ### The buffers through the bank bit (10_state.md R55) -/

/-- The source buffer `X = BUF[BANK]`. -/
def State.source (s : State) : Memory := if s.status.bank then s.buf1 else s.buf0

/-- The destination buffer `Y = BUF[1 - BANK]`. -/
def State.dest (s : State) : Memory := if s.status.bank then s.buf0 else s.buf1

/-- The state with another source buffer. -/
def State.setSource (s : State) (m : Memory) : State := if s.status.bank then { s with buf1 := m } else { s with buf0 := m }

/-- The state with another destination buffer. -/
def State.setDest (s : State) (m : Memory) : State := if s.status.bank then { s with buf0 := m } else { s with buf1 := m }

/-- Y[0..] takes the words `ys`, every further word of Y becomes unspecified, YLEN takes their number (10_state.md R42,
R55). -/
def State.writeY (s : State) (ys : List Word) : State :=
  let t := s.setDest (memOfWords ys s.free)
  { t with regs := { t.regs with ylen := BitVec.ofNat 13 ys.length }, free := s.free + 1 }

/-- B[0..] takes the bits `bs`, every further bit of B becomes unspecified, BLEN takes their number (10_state.md R44,
R57). -/
def State.writeB (s : State) (bs : List Bool) : State :=
  { s with bits := memOfBits bs s.free, regs := { s.regs with blen := BitVec.ofNat 13 bs.length }, free := s.free + 1 }

/-- C[0..] takes the words `ws`, every further word of C becomes unspecified, CLEN takes their number (10_state.md R43,
R56). -/
def State.writeC (s : State) (ws : List Word) : State :=
  { s with coef := memOfWords ws s.free, regs := { s.regs with clen := BitVec.ofNat 9 ws.length }, free := s.free + 1 }

/-! ### The events of a command -/

/-- The step is taken: its event leaves the input list and `r` is the answer on the bus. -/
def State.answer (s : State) (r : Reply) : State := { s with events := s.events.tail, reply := r }

/-- THE COMMAND-ERROR ENTRY for error `e` of command word `w`: ERR <- 1, ERRCODE <- e, ERRINFO <- w; nothing else changes
(60_exceptions.md R186). There is no mode, stack, vector or handler. -/
def State.errorEntry (s : State) (e : ErrCode) (w : Word) : State :=
  { s with status := s.status.errored e, regs := { s.regs with errInfo := w } }

/-- THE RETURN from a command error is part of the host's write to STATUS (60_exceptions.md R187; 10_state.md R26). -/
def State.writeStatus (s : State) (v : Word) : State := { s with status := s.status.writeOneToClear v }

/-- Acceptance: OPLATCH <- w[7:0]; BUSY <- 1; DONE <- 0; SHORT <- 0 (10_state.md R62 step 4). -/
def State.accept (s : State) (w : Word) : State := { s with status := s.status.accepted, opLatch := some (opField w) }

/-- A dropped host write: EBUSY <- 1, nothing else (10_state.md R63). -/
def State.dropWrite (s : State) : State := { s with status := { s.status with ebusy := true } }

/-- Command issue of the word `w` whose acceptance checks yield `e` (10_state.md R62), in its order: dropped while BUSY,
dropped while ERR, refused with an error, accepted. -/
def State.issue (s : State) (w : Word) (e : Option ErrCode) : State :=
  (if s.status.busy then s.dropWrite
   else if s.status.err then s
   else
    match e with
    | some c => s.errorEntry c w
    | none => s.accept w).answer .written

/-- What a command's Effect yields: the state it leaves, whether it saturated, whether it took its short-input path
(10_state.md R61). -/
structure Completion where
  state : State
  saturated : Bool
  short : Bool

/-- The completion step around an Effect: the flags, and OPLATCH no longer holds a command (10_state.md R21, R58, R61). -/
def Completion.finish (c : Completion) : State :=
  { c.state with status := c.state.status.completed c.saturated c.short, opLatch := none }.answer .none

/-- THE TWO EVENTS OF A COMMAND `i` (log 2). While BUSY = 1 the engine's step: the completion of the accepted command
(10_state.md R61). While BUSY = 0 the host's step: the issue of its word (R62), with the acceptance checks `check`. -/
def runCommand (i : Instr) (check : State → Option ErrCode) (effect : State → Completion) (s : State) :
    Host.Outcome State Fault Refusal :=
  if s.status.busy then .next (effect s).finish else .next (s.issue (encode i) (check s))

/-! ### Reset -/

/-- The reset step: every register takes its reset value, OPLATCH is emptied, the memories hold unspecified values,
whatever the engine was doing (70_reset_and_hazards.md R200, R201). `rst` is high. -/
def State.resetStep (s : State) : State :=
  { State.reset with
    buf0 := unspecifiedMemory s.free, buf1 := unspecifiedMemory (s.free + 1), coef := unspecifiedMemory (s.free + 2),
    bits := unspecifiedMemory (s.free + 3), free := s.free + 4, rst := true, events := s.events.tail }

end Sys2Proof.Machine
end

