-- ==== Sys2Proof/Machine/Operands.lean ====
section
/-! DEFINITION. The operands of the commands: every one is a register or a buffer (30_encoding.md R93). Registers are read
as the integers the rules compute with (00_scope.md R7, R8). -/

namespace Sys2Proof.Machine

/-- S, the register SPS (10_state.md R39). -/
def State.sps (s : State) : Nat := s.regs.sps.toNat
/-- XLEN, written N or M in the rules (10_state.md R41). -/
def State.xlen (s : State) : Nat := s.regs.xlen.toNat
/-- YLEN (10_state.md R42). -/
def State.ylen (s : State) : Nat := s.regs.ylen.toNat
/-- L, the register CLEN (10_state.md R43). -/
def State.clen (s : State) : Nat := s.regs.clen.toNat
/-- BLEN (10_state.md R44). -/
def State.blen (s : State) : Nat := s.regs.blen.toNat
/-- TLEN (10_state.md R45). -/
def State.tlen (s : State) : Nat := s.regs.tlen.toNat
/-- ALPHA as an unsigned count (10_state.md R40). -/
def State.alpha (s : State) : Nat := s.regs.alpha.toNat
/-- SMOOTH_A as an unsigned count (10_state.md R46). -/
def State.smoothA (s : State) : Nat := s.regs.smoothA.toNat
/-- KM_ITER (10_state.md R47). -/
def State.kmIter (s : State) : Nat := s.regs.kmIter.toNat
/-- KM_EPS as an unsigned count (10_state.md R48). -/
def State.kmEps (s : State) : Nat := s.regs.kmEps.toNat
/-- THRESH as a signed value (10_state.md R49). -/
def State.thresh (s : State) : Int := s.regs.thresh.toInt
/-- BESTOFF (10_state.md R52). -/
def State.bestOff (s : State) : Nat := s.regs.bestOff.toNat
/-- CFG.FKIND (10_state.md R37): 0 RECT, 1 RC, 2 RRC, 3 reserved. -/
def State.fkind (s : State) : Nat := s.regs.cfg.fkind.toNat
/-- CFG.ENC (10_state.md R38): 0 NRZ, 1 MANCHESTER, 2 AMI, 3 HDB3. -/
def State.enc (s : State) : Nat := s.regs.cfg.enc.toNat

/-- `ternary` means ENC = 2 or ENC = 3 (10_state.md R38). -/
def State.ternary (s : State) : Bool := s.enc == 2 || s.enc == 3

/-- The word X[i] (10_state.md R55). -/
def State.xWord (s : State) (i : Nat) : Word := s.source.word (4 * i)
/-- The word Y[i] (10_state.md R55). -/
def State.yWord (s : State) (i : Nat) : Word := s.dest.word (4 * i)
/-- The word C[k] (10_state.md R56). -/
def State.cWord (s : State) (k : Nat) : Word := s.coef.word (4 * k)
/-- The bit B[i] (10_state.md R57). -/
def State.bBit (s : State) (i : Nat) : Bool := s.bits.bit i

/-- X[i] as a signed integer (00_scope.md R8). -/
def State.x (s : State) (i : Nat) : Int := (s.xWord i).toInt
/-- Y[i] as a signed integer (00_scope.md R8). -/
def State.y (s : State) (i : Nat) : Int := (s.yWord i).toInt
/-- C[k] as a signed integer (00_scope.md R8). -/
def State.c (s : State) (k : Nat) : Int := (s.cWord k).toInt

/-- The samples X[0] to X[XLEN - 1], all of X a command reads (10_state.md R55, 20_memory.md R78). -/
def State.samples (s : State) : List Int := (List.range s.xlen).map s.x
/-- The kernel C[0] to C[CLEN - 1], all of C a command reads (10_state.md R43, 20_memory.md R78). -/
def State.kernel (s : State) : List Int := (List.range s.clen).map s.c

end Sys2Proof.Machine
end

