-- ==== Sys2Proof/Machine/Bus.lean ====
section
/-! DEFINITION. The bus: the address map, the host's reads and writes, the reset pin, and which event a state takes next
(20_memory.md, 10_state.md R23 to R63, 70_reset_and_hazards.md R200, R201). -/

namespace Sys2Proof.Machine

/-- The thirty registers, in the order of the register map (10_state.md R23). -/
inductive Reg where
  | id | cmd | status | ien | cfg | sps | alpha | xlen | ylen | clen | blen | tlen | smoothA | kmIter | kmEps | thresh
  | centLo | centHi | kmStat | bestOff | eyeOpen | eyeMinHigh | eyeMaxLow | eyeStat | emBestOff | emMaxOpen | emMinOpen
  | emMinHigh | emMaxLow | errInfo
  deriving DecidableEq, Repr

/-- The register at byte offset 4i (10_state.md R23). -/
def regAt (i : Nat) : Option Reg :=
  match i with
  | 0 => some .id
  | 1 => some .cmd
  | 2 => some .status
  | 3 => some .ien
  | 4 => some .cfg
  | 5 => some .sps
  | 6 => some .alpha
  | 7 => some .xlen
  | 8 => some .ylen
  | 9 => some .clen
  | 10 => some .blen
  | 11 => some .tlen
  | 12 => some .smoothA
  | 13 => some .kmIter
  | 14 => some .kmEps
  | 15 => some .thresh
  | 16 => some .centLo
  | 17 => some .centHi
  | 18 => some .kmStat
  | 19 => some .bestOff
  | 20 => some .eyeOpen
  | 21 => some .eyeMinHigh
  | 22 => some .eyeMaxLow
  | 23 => some .eyeStat
  | 24 => some .emBestOff
  | 25 => some .emMaxOpen
  | 26 => some .emMinOpen
  | 27 => some .emMinHigh
  | 28 => some .emMaxLow
  | 29 => some .errInfo
  | _ => none

/-- What an address names (20_memory.md R71). -/
inductive Target where
  /-- A register. -/
  | reg (r : Reg)
  /-- C[k]. -/
  | coef (k : Nat)
  /-- The bits B[32j] to B[32j+31]. -/
  | bitWord (j : Nat)
  /-- X[i]. -/
  | source (i : Nat)
  /-- Y[i]. -/
  | dest (i : Nat)
  deriving DecidableEq, Repr

/-- The address map (20_memory.md R71); none for an unmapped address. -/
def targetAt (a : Nat) : Option Target :=
  if a ≤ 0x0077 then (regAt (a / 4)).map .reg
  else if 0x1000 ≤ a ∧ a ≤ 0x1603 then some (.coef ((a - 0x1000) / 4))
  else if 0x2000 ≤ a ∧ a ≤ 0x21FF then some (.bitWord ((a - 0x2000) / 4))
  else if 0x4000 ≤ a ∧ a ≤ 0x7FFF then some (.source ((a - 0x4000) / 4))
  else if 0x8000 ≤ a ∧ a ≤ 0xBFFF then some (.dest ((a - 0x8000) / 4))
  else none

/-- What a transaction reaches; none where it raises BusError: `size` is not 2, misaligned, or unmapped (20_memory.md
R73). -/
def BusReq.target (r : BusReq) : Option Target :=
  if r.size ≠ 2#2 ∨ r.addr.toNat % 4 ≠ 0 then none else targetAt r.addr.toNat

/-! ### Reads -/

/-- The value a register reads as, reserved bits 0, CMD 0 (10_state.md R23 to R60). -/
def State.readReg (s : State) : Reg → Word
  | .id => Config.idWord
  | .cmd => 0#32
  | .status => s.status.toWord
  | .ien => s.regs.ien.toWord
  | .cfg => s.regs.cfg.toWord
  | .sps => s.regs.sps.setWidth 32
  | .alpha => s.regs.alpha
  | .xlen => s.regs.xlen.setWidth 32
  | .ylen => s.regs.ylen.setWidth 32
  | .clen => s.regs.clen.setWidth 32
  | .blen => s.regs.blen.setWidth 32
  | .tlen => s.regs.tlen.setWidth 32
  | .smoothA => s.regs.smoothA
  | .kmIter => s.regs.kmIter.setWidth 32
  | .kmEps => s.regs.kmEps
  | .thresh => s.regs.thresh
  | .centLo => s.regs.centLo
  | .centHi => s.regs.centHi
  | .kmStat => s.regs.kmStat.toWord
  | .bestOff => s.regs.bestOff.setWidth 32
  | .eyeOpen => s.regs.eyeOpen
  | .eyeMinHigh => s.regs.eyeMinHigh
  | .eyeMaxLow => s.regs.eyeMaxLow
  | .eyeStat => s.regs.eyeStat.toWord
  | .emBestOff => s.regs.emBestOff.setWidth 32
  | .emMaxOpen => s.regs.emMaxOpen
  | .emMinOpen => s.regs.emMinOpen
  | .emMinHigh => s.regs.emMinHigh
  | .emMaxLow => s.regs.emMaxLow
  | .errInfo => s.regs.errInfo

/-- The registers whose reads are valid while BUSY = 1: ID, CMD (0), STATUS, IEN, CFG, SPS, ALPHA, XLEN, TLEN, SMOOTH_A,
KM_ITER, KM_EPS, ERRINFO (10_state.md R63). -/
def Reg.validWhileBusy : Reg → Bool
  | .id | .cmd | .status | .ien | .cfg | .sps | .alpha | .xlen | .tlen | .smoothA | .kmIter | .kmEps | .errInfo => true
  | _ => false

/-- While BUSY = 1 every memory window and every other register reads an unspecified value (10_state.md R63, 20_memory.md
R74). -/
def Target.validWhileBusy : Target → Bool
  | .reg r => r.validWhileBusy
  | _ => false

/-- `r[b] = B[32j + b]` for b = 0 to 31 (20_memory.md R72). -/
def State.packedBits (s : State) (j : Nat) : Word := BitVec.ofFnLE fun b : Fin 32 => s.bBit (32 * j + b)

/-- The value an idle PSF1 returns (20_memory.md R74). -/
def State.readTarget (s : State) : Target → Word
  | .reg r => s.readReg r
  | .coef k => s.cWord k
  | .bitWord j => s.packedBits j
  | .source i => s.xWord i
  | .dest i => s.yWord i

/-- A host read of a legal address: no state changes (20_memory.md R74); where the value is unspecified a free value is
returned and counted (log 4). -/
def State.busRead (s : State) (t : Target) : State :=
  if s.status.busy && !t.validWhileBusy then
    { s.answer (.read (Config.unspecifiedWord s.free)) with free := s.free + 1 }
  else s.answer (.read (s.readTarget t))

/-- BusError: answered with `err` = 1 and an unspecified `rdata`; no state changes, not even EBUSY (20_memory.md R73). -/
def State.busError (s : State) : State :=
  { s.answer (.busError (Config.unspecifiedWord s.free)) with free := s.free + 1 }

/-! ### Writes -/

/-- A write of `v` to a register other than CMD while idle: the implemented bits of an RW register, the W1C rule of STATUS,
nothing for an RO register (10_state.md R23, R26; 20_memory.md R75). -/
def State.writeReg (s : State) (r : Reg) (v : Word) : State :=
  match r with
  | .status => s.writeStatus v
  | .ien => { s with regs := { s.regs with ien := ienOfWord v } }
  | .cfg => { s with regs := { s.regs with cfg := cfgOfWord v } }
  | .sps => { s with regs := { s.regs with sps := v.setWidth 7 } }
  | .alpha => { s with regs := { s.regs with alpha := v } }
  | .xlen => { s with regs := { s.regs with xlen := v.setWidth 13 } }
  | .clen => { s with regs := { s.regs with clen := v.setWidth 9 } }
  | .tlen => { s with regs := { s.regs with tlen := v.setWidth 13 } }
  | .smoothA => { s with regs := { s.regs with smoothA := v } }
  | .kmIter => { s with regs := { s.regs with kmIter := v.setWidth 8 } }
  | .kmEps => { s with regs := { s.regs with kmEps := v } }
  | .thresh => { s with regs := { s.regs with thresh := v } }
  | .bestOff => { s with regs := { s.regs with bestOff := v.setWidth 7 } }
  | .id | .cmd | .ylen | .blen | .centLo | .centHi | .kmStat | .eyeOpen | .eyeMinHigh | .eyeMaxLow | .eyeStat
  | .emBestOff | .emMaxOpen | .emMinOpen | .emMinHigh | .emMaxLow | .errInfo => s

/-- A write of `v` while idle to anything but CMD: C[k] <- v, X[i] <- v, Y[i] <- v; the B window ignores it (20_memory.md
R72, R75). -/
def State.writeTarget (s : State) (t : Target) (v : Word) : State :=
  match t with
  | .reg r => s.writeReg r v
  | .coef k => { s with coef := s.coef.putWord (4 * k) v }
  | .bitWord _ => s
  | .source i => s.setSource (s.source.putWord (4 * i) v)
  | .dest i => s.setDest (s.dest.putWord (4 * i) v)

/-! ### Which event a state takes next -/

/-- What a step does: run a command's event, settle in a state that no command has part in, or stop. -/
inductive Action where
  | run (i : Instr)
  | settle (s : State)
  | stuck (f : Fault)

/-- The engine's step: the completion of the command whose opcode is OPLATCH, enabled exactly when BUSY = 1
(10_state.md R61). -/
def State.engineAction (s : State) : Action :=
  if s.rst || !s.status.busy then .settle (s.answer .none)
  else
    match s.opLatch.bind decodeOp with
    | some i => .run i
    | none => .stuck .badLatch

/-- A host write to a legal address (20_memory.md R75): dropped while BUSY; to CMD the issue of a command, ILLEGAL_OP where
the word is illegal (10_state.md R62, R63; 60_exceptions.md R181). -/
def State.writeAction (s : State) (t : Target) (v : Word) : Action :=
  if s.status.busy then .settle (s.dropWrite.answer .written)
  else
    match t with
    | .reg .cmd =>
      match decode v with
      | some i => .run i
      | none => .settle (s.issue v (some .illegalOp))
    | _ => .settle ((s.writeTarget t v).answer .written)

/-- A bus transaction. While `rst` is high it is not answered (70_reset_and_hazards.md R200; log 8). -/
def State.busAction (s : State) (r : BusReq) : Action :=
  if s.rst then .settle (s.answer .none)
  else
    match r.target with
    | none => .settle s.busError
    | some t => if r.we then s.writeAction t r.wdata else .settle (s.busRead t)

/-- The reset pin: sampled high, the reset step; low, commands and transactions are taken again (70_reset_and_hazards.md
R200). -/
def State.rstAction (s : State) (high : Bool) : Action :=
  .settle (if high then s.resetStep else { s.answer .none with rst := false })

/-- The next event of a state: the oldest of its input list, or the engine's step when the list is used up (log 1). -/
def State.nextAction (s : State) : Action :=
  match s.events with
  | [] => s.engineAction
  | .engine :: _ => s.engineAction
  | .rst high :: _ => s.rstAction high
  | .bus r :: _ => s.busAction r

/-- The bus write that issues the command word `w` (30_encoding.md R90, R96: `MemWrite(0x004, 4, w)`). -/
def cmdWrite (w : Word) : BusReq := { we := true, addr := 0x0004#16, size := 2#2, wdata := w }

end Sys2Proof.Machine
end

