-- ==== Sys2Proof/Machine/Checks.lean ====
section
/-! DEFINITION. The acceptance checks, command by command, from the table of 60_exceptions.md R184. -/

namespace Sys2Proof.Machine

/-- SPS is not in 1..64. -/
def State.badSps (s : State) : Bool := s.sps == 0 || decide (s.sps > Config.smax)
/-- XLEN > 4096. -/
def State.badXlen (s : State) : Bool := decide (s.xlen > Config.depth)
/-- XLEN > 4096 or XLEN * SPS > 4096: the upsampled output would not fit in Y. -/
def State.badUpsampledLen (s : State) : Bool := s.badXlen || decide (s.xlen * s.sps > Config.depth)
/-- CLEN is not in 1..385. -/
def State.badKernel (s : State) : Bool := s.clen == 0 || decide (s.clen > Config.lmax)
/-- SMOOTH_A > ONE. -/
def State.badSmooth (s : State) : Bool := decide (s.smoothA > Config.one)
/-- CFG.FKIND is 1 or 2: the kinds that have a kernel. -/
def State.shapedKind (s : State) : Bool := s.fkind == 1 || s.fkind == 2

/-- The first check that holds is the one error reported: the lowest code wins (60_exceptions.md R184). -/
def firstError (badCfg badLen noKernel : Bool) : Option ErrCode :=
  if badCfg then some .badCfg else if badLen then some .badLen else if noKernel then some .noKernel else none

/-- NOP raises no error (40_control.md R101). -/
def checkNop (_ : State) : Option ErrCode := firstError false false false
/-- XCHG raises no error (40_control.md R102). -/
def checkXchg (_ : State) : Option ErrCode := firstError false false false
/-- KGEN (41_txfilter.md R115). -/
def checkKgen (s : State) : Option ErrCode :=
  firstError (s.fkind == 0 || s.fkind == 3 || s.badSps || decide (s.alpha > Config.one)) false false
/-- TXHOLD (41_txfilter.md R116). -/
def checkTxhold (s : State) : Option ErrCode := firstError s.badSps s.badUpsampledLen false
/-- TXSHAPE (41_txfilter.md R119). -/
def checkTxshape (s : State) : Option ErrCode := firstError s.badSps s.badUpsampledLen s.badKernel
/-- TXFILT (41_txfilter.md R120). -/
def checkTxfilt (s : State) : Option ErrCode :=
  firstError (s.fkind == 3 || s.badSps) s.badUpsampledLen (s.shapedKind && s.badKernel)
/-- RXMATCH (42_rxfilter.md R133). -/
def checkRxmatch (s : State) : Option ErrCode := firstError s.badSps s.badXlen s.badKernel
/-- RXSMOOTH (42_rxfilter.md R135). -/
def checkRxsmooth (s : State) : Option ErrCode := firstError (s.badSps || s.badSmooth) s.badXlen false
/-- RXMAVG (42_rxfilter.md R137). -/
def checkRxmavg (s : State) : Option ErrCode := firstError s.badSps s.badXlen false
/-- RXFILT (42_rxfilter.md R138). -/
def checkRxfilt (s : State) : Option ErrCode :=
  firstError (s.fkind == 3 || s.badSps || (s.ternary && s.badSmooth)) s.badXlen
    (!s.ternary && s.shapedKind && s.badKernel)
/-- EYESRCH (43_clock_recovery.md R142). -/
def checkEyesrch (s : State) : Option ErrCode := firstError s.badSps s.badXlen false
/-- DECIM (43_clock_recovery.md R144). -/
def checkDecim (s : State) : Option ErrCode := firstError (s.badSps || decide (s.bestOff ≥ s.sps)) s.badXlen false
/-- RECOVER (43_clock_recovery.md R145). -/
def checkRecover (s : State) : Option ErrCode := firstError s.badSps s.badXlen false
/-- EYEMET (44_eye_metrics.md R151). -/
def checkEyemet (s : State) : Option ErrCode := firstError s.badSps s.badXlen false
/-- THRESH (45_decoder.md R163). -/
def checkThresh (s : State) : Option ErrCode := firstError false s.badXlen false
/-- DECIDE (45_decoder.md R168). -/
def checkDecide (s : State) : Option ErrCode := firstError false s.badXlen false
/-- DECODE (45_decoder.md R169). -/
def checkDecode (s : State) : Option ErrCode := firstError false s.badXlen false
/-- BRESIZE (45_decoder.md R170). -/
def checkBresize (s : State) : Option ErrCode := firstError false (decide (s.tlen > Config.bdepth)) false

/-- The acceptance checks of a command (60_exceptions.md R184). -/
def acceptanceCheck : Instr → State → Option ErrCode
  | .nop => checkNop
  | .xchg => checkXchg
  | .kgen => checkKgen
  | .txfilt => checkTxfilt
  | .txhold => checkTxhold
  | .txshape => checkTxshape
  | .rxfilt => checkRxfilt
  | .rxmatch => checkRxmatch
  | .rxsmooth => checkRxsmooth
  | .rxmavg => checkRxmavg
  | .eyesrch => checkEyesrch
  | .decim => checkDecim
  | .recover => checkRecover
  | .eyemet => checkEyemet
  | .thresh => checkThresh
  | .decideBits => checkDecide
  | .decodeBits => checkDecode
  | .bresize => checkBresize

end Sys2Proof.Machine
end

