-- ==== Sys2Proof/Machine/ClockRecovery.lean ====
section
/-! DEFINITION. The sampling-instant search and the downsampler: EYESRCH, DECIM, RECOVER (43_clock_recovery.md). -/

namespace Sys2Proof.Machine

/-- What a scan of one offset has seen: the running `mh` and `ml`, and `cnt` (43_clock_recovery.md R141). -/
structure Levels where
  minHigh : Option Int
  maxLow : Option Int
  count : Nat
  deriving DecidableEq, Repr

/-- `(mh or 0) - (ml or 0)` (43_clock_recovery.md R141, 44_eye_metrics.md R151). -/
def Levels.opening (l : Levels) : Int := orZero l.minHigh - orZero l.maxLow

/-- The centres of offset o: `c = i*S + o` with i >= 1 and c + S <= M - 1, rising (43_clock_recovery.md R141). -/
def centres (M S o : Nat) : List Nat :=
  ((List.range (M / S)).map fun i => (i + 1) * S + o).filter fun c => decide (c + S + 1 ≤ M)

/-- One centre: valid positive when its three samples are > 0, valid negative when all are < 0 (43_clock_recovery.md
R141). -/
def scanCentre (xs : List Int) (S : Nat) (l : Levels) (c : Nat) : Levels :=
  let p := xs.getD (c - S) 0
  let q := xs.getD c 0
  let n := xs.getD (c + S) 0
  if p > 0 ∧ q > 0 ∧ n > 0 then { l with count := l.count + 1, minHigh := minSeen l.minHigh q }
  else if p < 0 ∧ q < 0 ∧ n < 0 then { l with count := l.count + 1, maxLow := maxSeen l.maxLow q }
  else l

/-- The scan of offset o (43_clock_recovery.md R141). -/
def scanOffset (xs : List Int) (S o : Nat) : Levels :=
  (centres xs.length S o).foldl (scanCentre xs S) { minHigh := none, maxLow := none, count := 0 }

/-- The result of EyeSearch (43_clock_recovery.md R141). -/
structure EyeResult where
  found : Bool
  best : Nat
  opening : Int
  minHigh : Int
  maxLow : Int
  hiSeen : Bool
  loSeen : Bool
  count : Nat
  deriving DecidableEq, Repr

/-- One offset of the search: a candidate when cnt > 0, better when its opening is strictly larger (43_clock_recovery.md
R141). -/
def searchOffset (xs : List Int) (S : Nat) (r : EyeResult) (o : Nat) : EyeResult :=
  let l := scanOffset xs S o
  if l.count > 0 ∧ (r.found = false ∨ l.opening > r.opening) then
    { found := true, best := o, opening := l.opening, minHigh := orZero l.minHigh, maxLow := orZero l.maxLow,
      hiSeen := l.minHigh.isSome, loSeen := l.maxLow.isSome, count := l.count }
  else r

/-- `EyeSearch(X, M, S)` (43_clock_recovery.md R141). -/
def eyeSearch (xs : List Int) (S : Nat) : EyeResult :=
  (List.range S).foldl (searchOffset xs S)
    { found := false, best := S / 2, opening := 0, minHigh := 0, maxLow := 0, hiSeen := false, loSeen := false,
      count := 0 }

/-- BESTOFF, EYE_OPEN, EYE_MINHIGH, EYE_MAXLOW and EYE_STAT take the result of a search (43_clock_recovery.md R142). -/
def Regs.withEye (g : Regs) (r : EyeResult) : Regs :=
  { g with
    bestOff := BitVec.ofNat 7 r.best, eyeOpen := wordOfInt r.opening, eyeMinHigh := wordOfInt r.minHigh,
    eyeMaxLow := wordOfInt r.maxLow,
    eyeStat := { found := r.found, hiSeen := r.hiSeen, loSeen := r.loSeen, vcnt := BitVec.ofNat 13 r.count } }

/-- The state after the search on its X (43_clock_recovery.md R142). -/
def State.searched (s : State) : State := { s with regs := s.regs.withEye (eyeSearch s.samples s.sps) }

/-- The effect of EYESRCH (43_clock_recovery.md R142). -/
def eyesrchEffect (s : State) : Completion where
  state := s.searched
  saturated := false
  short := decide (s.xlen < s.sps)

/-- `Downsample(X, M, S, b)`: the input unchanged when M < S, else X[i*S + b] for i in 0..floor(M/S)-1
(43_clock_recovery.md R143; 90_conflicts.md C2). -/
def downsample (xs : List Int) (S b : Nat) : List Int :=
  if xs.length < S then xs else (List.range (xs.length / S)).map fun i => xs.getD (i * S + b) 0

/-- The effect of DECIM (43_clock_recovery.md R144). -/
def decimEffect (s : State) : Completion where
  state := s.writeY ((downsample s.samples s.sps s.bestOff).map wordOfInt)
  saturated := false
  short := decide (s.xlen < s.sps)

/-- The effect of RECOVER: that of EYESRCH, then Downsample with the `best` just found (43_clock_recovery.md R145). -/
def recoverEffect (s : State) : Completion where
  state := s.searched.writeY ((downsample s.samples s.sps (eyeSearch s.samples s.sps).best).map wordOfInt)
  saturated := false
  short := decide (s.xlen < s.sps)

/-- EYESRCH (43_clock_recovery.md R142). -/
def execEyesrch (s : State) : Host.Outcome State Fault Refusal := runCommand .eyesrch checkEyesrch eyesrchEffect s

/-- DECIM (43_clock_recovery.md R144). -/
def execDecim (s : State) : Host.Outcome State Fault Refusal := runCommand .decim checkDecim decimEffect s

/-- RECOVER (43_clock_recovery.md R145). -/
def execRecover (s : State) : Host.Outcome State Fault Refusal := runCommand .recover checkRecover recoverEffect s

end Sys2Proof.Machine
end

