-- ==== Sys2Proof/Machine/Control.lean ====
section
/-! DEFINITION. The control commands NOP and XCHG (40_control.md). -/

namespace Sys2Proof.Machine

/-- NOP has no effect beyond the flags of a completion (40_control.md R101). -/
def nopEffect (s : State) : Completion := { state := s, saturated := false, short := false }

/-- BANK <- 1 - BANK, XLEN and YLEN exchanged, no buffer word moved (40_control.md R102). -/
def xchgEffect (s : State) : Completion where
  state := { s with status := { s.status with bank := !s.status.bank },
                    regs := { s.regs with xlen := s.regs.ylen, ylen := s.regs.xlen } }
  saturated := false
  short := false

/-- NOP (40_control.md R101). -/
def execNop (s : State) : Host.Outcome State Fault Refusal := runCommand .nop checkNop nopEffect s

/-- XCHG (40_control.md R102). -/
def execXchg (s : State) : Host.Outcome State Fault Refusal := runCommand .xchg checkXchg xchgEffect s

end Sys2Proof.Machine
end

