-- ==== Sys2Proof/Machine/Decoder.lean ====
section
/-! DEFINITION. The adaptive threshold decoder: THRESH, DECIDE, DECODE, BRESIZE (45_decoder.md). -/

namespace Sys2Proof.Machine

/-- The clustered values: X[i], or sabs(X[i]) when the encoding is ternary (45_decoder.md R161, R164). -/
def State.magnitudes (s : State) : List Int := if s.ternary then s.samples.map sabs else s.samples

/-- An X[i] = MINW under a ternary encoding counts as a saturation (45_decoder.md R161, R168; 00_scope.md R13). -/
def State.absSaturates (s : State) : Bool := s.ternary && s.samples.any fun v => v == Config.minw

/-- The least and the greatest of a list (45_decoder.md R162); 0 for the empty list, which KMeans does not ask. -/
def leastOf : List Int → Int
  | [] => 0
  | v :: vs => vs.foldl min v
/-- See `leastOf`. -/
def greatestOf : List Int → Int
  | [] => 0
  | v :: vs => vs.foldl max v

/-- `|v - c0| <= |v - c1|`: the sample goes to cluster 0 (45_decoder.md R162). -/
def nearLow (c0 c1 v : Int) : Bool := decide ((v - c0).natAbs ≤ (v - c1).natAbs)

/-- The new centre of a cluster: the truncated mean, or the old centre when the cluster is empty (45_decoder.md R162). -/
def newCentre (old : Int) (cluster : List Int) : Int :=
  if cluster.length > 0 then tdiv cluster.sum cluster.length else old

/-- `(d0, d1)` of one iteration (45_decoder.md R162). -/
def newCentres (vs : List Int) (c0 c1 : Int) : Int × Int :=
  (newCentre c0 (vs.filter (nearLow c0 c1)), newCentre c1 (vs.filter fun v => !nearLow c0 c1 v))

/-- How the iteration ended: the centres, `iters`, `conv` (45_decoder.md R162). -/
structure Clusters where
  c0 : Int
  c1 : Int
  iters : Nat
  conv : Bool
  deriving DecidableEq, Repr

/-- `while iters < maxit and conv = 0`, with the number of iterations left and the number done (45_decoder.md R162). -/
def clusterLoop (vs : List Int) (eps : Nat) : (left : Nat) → (c0 c1 : Int) → (iters : Nat) → Clusters
  | 0, c0, c1, iters => { c0 := c0, c1 := c1, iters := iters, conv := false }
  | left + 1, c0, c1, iters =>
    let d := newCentres vs c0 c1
    if (d.1 - c0).natAbs < eps ∧ (d.2 - c1).natAbs < eps then
      { c0 := d.1, c1 := d.2, iters := iters + 1, conv := true }
    else clusterLoop vs eps left d.1 d.2 (iters + 1)

/-- What KMeans returns (45_decoder.md R162). -/
structure Threshold where
  thr : Int
  lo : Int
  hi : Int
  iters : Nat
  conv : Bool
  deriving DecidableEq, Repr

/-- `KMeans(v, N, maxit, eps)` (45_decoder.md R162). -/
def kMeans (vs : List Int) (maxit eps : Nat) : Threshold :=
  if vs.isEmpty then { thr := 0, lo := 0, hi := 0, iters := 0, conv := false }
  else
    let mn := leastOf vs
    let range := greatestOf vs - mn
    let k := clusterLoop vs eps maxit (mn + range / 4) (mn + 3 * range / 4) 0
    let lo := min k.c0 k.c1
    let hi := max k.c0 k.c1
    { thr := (lo + hi) / 2, lo := lo, hi := hi, iters := k.iters, conv := k.conv }

/-- THRESH, CENT_LO, CENT_HI and KM_STAT take the result (45_decoder.md R163). -/
def Regs.withThreshold (g : Regs) (r : Threshold) : Regs :=
  { g with
    thresh := wordOfInt r.thr, centLo := wordOfInt r.lo, centHi := wordOfInt r.hi,
    kmStat := { iters := BitVec.ofNat 8 r.iters, conv := r.conv } }

/-- The state after the threshold search on its X (45_decoder.md R163). -/
def State.thresholded (s : State) : State :=
  { s with regs := s.regs.withThreshold (kMeans s.magnitudes s.kmIter s.kmEps) }

/-- The effect of THRESH (45_decoder.md R163). -/
def threshEffect (s : State) : Completion where
  state := s.thresholded
  saturated := s.absSaturates
  short := s.xlen == 0

/-- The symbol decisions against T: 1 iff strictly greater (45_decoder.md R164). -/
def symbols (vs : List Int) (T : Int) : List Bool := vs.map fun v => decide (v > T)

/-- One pair of symbols: (1,0) is 1, (0,1) is 0, an ambiguous pair inherits (45_decoder.md R167). -/
def pairBit (prev a b : Bool) : Bool := if a && !b then true else if !a && b then false else prev

/-- The Manchester bits, an odd sequence padded with one false (45_decoder.md R167). -/
def manchester : (prev : Bool) → List Bool → List Bool
  | _, [] => []
  | prev, [a] => [pairBit prev a false]
  | prev, a :: b :: rest => pairBit prev a b :: manchester (pairBit prev a b) rest

/-- The decoded bits: two symbols a bit for MANCHESTER, else one (45_decoder.md R165, R166, R167). -/
def State.decodedBits (s : State) (T : Int) : List Bool :=
  if s.enc = 1 then manchester false (symbols s.magnitudes T) else symbols s.magnitudes T

/-- The effect of DECIDE (45_decoder.md R168). -/
def decideEffect (s : State) : Completion where
  state := s.writeB (s.decodedBits s.thresh)
  saturated := s.absSaturates
  short := s.xlen == 0

/-- The effect of DECODE: that of THRESH, then that of DECIDE with the threshold just written (45_decoder.md R169). -/
def decodeEffect (s : State) : Completion where
  state := (decideEffect s.thresholded).state
  saturated := s.absSaturates
  short := s.xlen == 0

/-- The bits after a resize to TLEN: the old ones, padded with 0 (45_decoder.md R170). -/
def State.resizedBits (s : State) : List Bool :=
  (List.range s.tlen).map fun i => if i < s.blen then s.bBit i else false

/-- The effect of BRESIZE (45_decoder.md R170). -/
def bresizeEffect (s : State) : Completion where
  state := s.writeB s.resizedBits
  saturated := false
  short := false

/-- THRESH (45_decoder.md R163). -/
def execThresh (s : State) : Host.Outcome State Fault Refusal := runCommand .thresh checkThresh threshEffect s

/-- DECIDE (45_decoder.md R168). -/
def execDecide (s : State) : Host.Outcome State Fault Refusal := runCommand .decideBits checkDecide decideEffect s

/-- DECODE (45_decoder.md R169). -/
def execDecode (s : State) : Host.Outcome State Fault Refusal := runCommand .decodeBits checkDecode decodeEffect s

/-- BRESIZE (45_decoder.md R170). -/
def execBresize (s : State) : Host.Outcome State Fault Refusal := runCommand .bresize checkBresize bresizeEffect s

end Sys2Proof.Machine
end

