-- ==== Sys2Proof/Machine/EyeMetrics.lean ====
section
/-! DEFINITION. The eye-opening metrics EYEMET (44_eye_metrics.md). -/

namespace Sys2Proof.Machine

/-- The samples of offset o: the indices o, o + S, o + 2S, ... below M (44_eye_metrics.md R151). -/
def offsetIndices (M S o : Nat) : List Nat :=
  ((List.range (M / S + 1)).map fun i => i * S + o).filter fun i => decide (i + 1 ≤ M)

/-- One sample: high if > 0, else low (44_eye_metrics.md R151). -/
def metricSample (xs : List Int) (l : Levels) (i : Nat) : Levels :=
  let v := xs.getD i 0
  if v > 0 then { l with count := l.count + 1, minHigh := minSeen l.minHigh v }
  else { l with count := l.count + 1, maxLow := maxSeen l.maxLow v }

/-- `mh[o]` and `ml[o]` (44_eye_metrics.md R151). -/
def metricOffset (xs : List Int) (S o : Nat) : Levels :=
  (offsetIndices xs.length S o).foldl (metricSample xs) { minHigh := none, maxLow := none, count := 0 }

/-- The five numbers of EYEMET (10_state.md R59, 44_eye_metrics.md R151). -/
structure EyeMetrics where
  best : Nat
  maxOpen : Int
  minOpen : Int
  minHigh : Int
  maxLow : Int
  deriving DecidableEq, Repr

/-- One more offset: a strictly larger opening moves `best`, so the smallest offset wins a tie (44_eye_metrics.md
R151). -/
def metricStep (xs : List Int) (S : Nat) (r : EyeMetrics) (o : Nat) : EyeMetrics :=
  let l := metricOffset xs S o
  let r := { r with minOpen := min r.minOpen l.opening }
  if l.opening > r.maxOpen then
    { r with best := o, maxOpen := l.opening, minHigh := orZero l.minHigh, maxLow := orZero l.maxLow }
  else r

/-- The metrics over all offsets, from offset 0 on (44_eye_metrics.md R151). -/
def eyeMetrics (xs : List Int) (S : Nat) : EyeMetrics :=
  let l := metricOffset xs S 0
  (List.range' 1 (S - 1)).foldl (metricStep xs S)
    { best := 0, maxOpen := l.opening, minOpen := l.opening, minHigh := orZero l.minHigh, maxLow := orZero l.maxLow }

/-- EM_BESTOFF, EM_MAXOPEN, EM_MINOPEN, EM_MINHIGH, EM_MAXLOW take the metrics (44_eye_metrics.md R151). -/
def Regs.withMetrics (g : Regs) (r : EyeMetrics) : Regs :=
  { g with
    emBestOff := BitVec.ofNat 7 r.best, emMaxOpen := wordOfInt r.maxOpen, emMinOpen := wordOfInt r.minOpen,
    emMinHigh := wordOfInt r.minHigh, emMaxLow := wordOfInt r.maxLow }

/-- The effect of EYEMET (44_eye_metrics.md R151). -/
def eyemetEffect (s : State) : Completion where
  state := { s with regs := s.regs.withMetrics (eyeMetrics s.samples s.sps) }
  saturated := false
  short := decide (s.xlen < s.sps)

/-- EYEMET (44_eye_metrics.md R151). -/
def execEyemet (s : State) : Host.Outcome State Fault Refusal := runCommand .eyemet checkEyemet eyemetEffect s

end Sys2Proof.Machine
end

