-- ==== Sys2Proof/Machine/RxFilter.lean ====
section
/-! DEFINITION. The reception filters RXMATCH, RXSMOOTH, RXMAVG, RXFILT (42_rxfilter.md). -/

namespace Sys2Proof.Machine

/-- Short input, M < S: "return the input unchanged", SHORT <- 1; otherwise the filter (42_rxfilter.md R131). -/
def unlessShort (filter : State → Completion) (s : State) : Completion :=
  if s.xlen < s.sps then { state := s.writeY (s.samples.map wordOfInt), saturated := false, short := true } else filter s

/-- `acc` of output n: the sum of C[L-1-k] * X[m] over the k whose m = n + G - k has 0 <= m < M (42_rxfilter.md R132,
R133). -/
def matchSum (cs xs : List Int) (n : Nat) : Int :=
  sumTo cs.length fun k =>
    let m := n + cs.length / 2 - k
    if k ≤ n + cs.length / 2 ∧ m < xs.length then cs.getD (cs.length - 1 - k) 0 * xs.getD m 0 else 0

/-- `rnd(acc)` for n in 0..M-1, before saturation (42_rxfilter.md R133). -/
def matchFilter (cs xs : List Int) : List Int := (List.range xs.length).map fun n => rnd (matchSum cs xs n)

/-- The matched filter on an input that is not short (42_rxfilter.md R133). -/
def matchLong (s : State) : Completion where
  state := s.writeY ((matchFilter s.kernel s.samples).map fun v => wordOfInt (sat v))
  saturated := (matchFilter s.kernel s.samples).any clips
  short := false

/-- The recurrence `prev = rnd(A * X[i] + (ONE - A) * prev)`, from `prev` on (42_rxfilter.md R134, R135). -/
def smoothFrom (A : Int) : (prev : Int) → List Int → List Int
  | _, [] => []
  | prev, v :: vs =>
    let y := rnd (A * v + (Config.one - A) * prev)
    y :: smoothFrom A y vs

/-- The smoothing filter starts settled on the first sample, `y[-1] = x[0]` (42_rxfilter.md R134). -/
def smoothFilter (A : Int) (xs : List Int) : List Int := smoothFrom A (xs.headD 0) xs

/-- The smoothing filter on an input that is not short; no `sat` is needed (42_rxfilter.md R135). -/
def smoothLong (s : State) : Completion where
  state := s.writeY ((smoothFilter s.smoothA s.samples).map wordOfInt)
  saturated := false
  short := false

/-- Output i of the moving average: the sum over lo..hi, lo = max(0, i - H), hi = min(M - 1, i + H), H = floor(S / 4),
divided by the number of samples kept (42_rxfilter.md R136, R137). -/
def averageAt (S : Nat) (xs : List Int) (i : Nat) : Int :=
  let lo := i - S / 4
  let hi := min (xs.length - 1) (i + S / 4)
  tdiv (sumTo (hi - lo + 1) fun j => xs.getD (lo + j) 0) ((hi - lo + 1 : Nat) : Int)

/-- The moving average for i in 0..M-1 (42_rxfilter.md R137). -/
def averageFilter (S : Nat) (xs : List Int) : List Int := (List.range xs.length).map (averageAt S xs)

/-- The moving average on an input that is not short (42_rxfilter.md R137). -/
def averageLong (s : State) : Completion where
  state := s.writeY ((averageFilter s.sps s.samples).map wordOfInt)
  saturated := false
  short := false

/-- The effect of RXMATCH (42_rxfilter.md R133). -/
def rxmatchEffect (s : State) : Completion := unlessShort matchLong s
/-- The effect of RXSMOOTH (42_rxfilter.md R135). -/
def rxsmoothEffect (s : State) : Completion := unlessShort smoothLong s
/-- The effect of RXMAVG (42_rxfilter.md R137). -/
def rxmavgEffect (s : State) : Completion := unlessShort averageLong s

/-- The effect of RXFILT: the ternary test first, then RECT, then matched (42_rxfilter.md R138). -/
def rxfiltEffect (s : State) : Completion :=
  if s.ternary then rxsmoothEffect s else if s.fkind = 0 then rxmavgEffect s else rxmatchEffect s

/-- RXMATCH (42_rxfilter.md R133). -/
def execRxmatch (s : State) : Host.Outcome State Fault Refusal := runCommand .rxmatch checkRxmatch rxmatchEffect s

/-- RXSMOOTH (42_rxfilter.md R135). -/
def execRxsmooth (s : State) : Host.Outcome State Fault Refusal := runCommand .rxsmooth checkRxsmooth rxsmoothEffect s

/-- RXMAVG (42_rxfilter.md R137). -/
def execRxmavg (s : State) : Host.Outcome State Fault Refusal := runCommand .rxmavg checkRxmavg rxmavgEffect s

/-- RXFILT (42_rxfilter.md R138). -/
def execRxfilt (s : State) : Host.Outcome State Fault Refusal := runCommand .rxfilt checkRxfilt rxfiltEffect s

end Sys2Proof.Machine
end

