-- ==== Sys2Proof/Machine/TxFilter.lean ====
section
/-! DEFINITION. The transmit filters KGEN, TXHOLD, TXSHAPE, TXFILT (41_txfilter.md). -/

namespace Sys2Proof.Machine

/-- `TapGen(kind, S, A)[k]`, k in 0..6S: the free half kernel and its mirror, so that property K2 holds (41_txfilter.md
R111, R114). -/
def tapGen (kind : KernelKind) (S A k : Nat) : Word := Config.tapHalf kind S A (min k (6 * S - k))

/-- `kind = RC if CFG.FKIND = 1 else RRC` (41_txfilter.md R115). -/
def State.kernelKind (s : State) : KernelKind := if s.fkind = 1 then .rc else .rrc

/-- The generated kernel, 6S + 1 words (41_txfilter.md R115). -/
def generatedKernel (kind : KernelKind) (S A : Nat) : List Word := (List.range (6 * S + 1)).map (tapGen kind S A)

/-- C[k] <- TapGen(kind, S, A)[k] for k in 0..6S, CLEN <- 6S + 1 (41_txfilter.md R115). -/
def kgenEffect (s : State) : Completion where
  state := s.writeC (generatedKernel s.kernelKind s.sps s.alpha)
  saturated := false
  short := false

/-- `Y[n] = X[floor(n / S)]` for n in 0..N*S-1 (41_txfilter.md R116). -/
def holdFilter (S : Nat) (xs : List Int) : List Int := (List.range (xs.length * S)).map fun n => xs.getD (n / S) 0

/-- The effect of TXHOLD (41_txfilter.md R116). -/
def txholdEffect (s : State) : Completion where
  state := s.writeY ((holdFilter s.sps s.samples).map wordOfInt)
  saturated := false
  short := s.xlen == 0

/-- `acc` of output n: the sum of C[k] * X[m / S] over the k whose m = n + G - k has 0 <= m < M and m mod S = 0
(41_txfilter.md R119). -/
def shapeSum (S : Nat) (cs xs : List Int) (n : Nat) : Int :=
  sumTo cs.length fun k =>
    let m := n + cs.length / 2 - k
    if k ≤ n + cs.length / 2 ∧ m < xs.length * S ∧ m % S = 0 then cs.getD k 0 * xs.getD (m / S) 0 else 0

/-- `rnd(acc)` for n in 0..M-1, M = N*S, before saturation (41_txfilter.md R119). -/
def shapeFilter (S : Nat) (cs xs : List Int) : List Int :=
  (List.range (xs.length * S)).map fun n => rnd (shapeSum S cs xs n)

/-- The effect of TXSHAPE (41_txfilter.md R119). -/
def txshapeEffect (s : State) : Completion where
  state := s.writeY ((shapeFilter s.sps s.kernel s.samples).map fun v => wordOfInt (sat v))
  saturated := (shapeFilter s.sps s.kernel s.samples).any clips
  short := s.xlen == 0

/-- The effect of TXFILT: that of TXHOLD if FKIND = 0, of TXSHAPE if FKIND = 1 or 2 (41_txfilter.md R120). -/
def txfiltEffect (s : State) : Completion := if s.fkind = 0 then txholdEffect s else txshapeEffect s

/-- KGEN (41_txfilter.md R115). -/
def execKgen (s : State) : Host.Outcome State Fault Refusal := runCommand .kgen checkKgen kgenEffect s

/-- TXHOLD (41_txfilter.md R116). -/
def execTxhold (s : State) : Host.Outcome State Fault Refusal := runCommand .txhold checkTxhold txholdEffect s

/-- TXSHAPE (41_txfilter.md R119). -/
def execTxshape (s : State) : Host.Outcome State Fault Refusal := runCommand .txshape checkTxshape txshapeEffect s

/-- TXFILT (41_txfilter.md R120). -/
def execTxfilt (s : State) : Host.Outcome State Fault Refusal := runCommand .txfilt checkTxfilt txfiltEffect s

end Sys2Proof.Machine
end

