-- ==== Sys2Proof/Machine/Dispatch.lean ====
section
/-! DEFINITION. One arm per command: its issue while BUSY = 0, its completion while BUSY = 1 (log 2). -/

namespace Sys2Proof.Machine

def exec (i : Instr) (s : State) : Host.Outcome State Fault Refusal :=
  match i with
  | .nop => Sys2Proof.Machine.execNop s
  | .xchg => Sys2Proof.Machine.execXchg s
  | .kgen => Sys2Proof.Machine.execKgen s
  | .txfilt => Sys2Proof.Machine.execTxfilt s
  | .txhold => Sys2Proof.Machine.execTxhold s
  | .txshape => Sys2Proof.Machine.execTxshape s
  | .rxfilt => Sys2Proof.Machine.execRxfilt s
  | .rxmatch => Sys2Proof.Machine.execRxmatch s
  | .rxsmooth => Sys2Proof.Machine.execRxsmooth s
  | .rxmavg => Sys2Proof.Machine.execRxmavg s
  | .eyesrch => Sys2Proof.Machine.execEyesrch s
  | .decim => Sys2Proof.Machine.execDecim s
  | .recover => Sys2Proof.Machine.execRecover s
  | .eyemet => Sys2Proof.Machine.execEyemet s
  | .thresh => Sys2Proof.Machine.execThresh s
  | .decideBits => Sys2Proof.Machine.execDecide s
  | .decodeBits => Sys2Proof.Machine.execDecode s
  | .bresize => Sys2Proof.Machine.execBresize s

end Sys2Proof.Machine
end

