-- ==== Sys2Proof/Machine/Step.lean ====
section
/-! DEFINITION. One step of PSF1: the next event of its input list, or the engine's completion (10_state.md R61). -/

namespace Sys2Proof.Machine

/-- One step. -/
def step (s : State) : Host.Outcome State Fault Refusal :=
  match s.nextAction with
  | .run i => exec i s
  | .settle t => .next t
  | .stuck f => .fault f

/-- The command word is the data of one bus write to CMD (30_encoding.md R90): that write is the next event. Every bit above
`nbits` is 0. -/
def State.withFetchWord (s : State) (nbits w : Nat) : State :=
  { s with events := .bus (cmdWrite (BitVec.ofNat 32 (w % 2 ^ nbits))) :: s.events }

end Sys2Proof.Machine
end

