-- ==== Sys2Proof/Machine/HostNotation.lean ====
section
/-! DEFINITION. The notation for host programs, as lists of events (30_encoding.md R96, R97). None of it is a hardware
feature. -/

namespace Sys2Proof.Machine

/-- The offset of a register (10_state.md R23). -/
def Reg.offset : Reg → Nat
  | .id => 0x000 | .cmd => 0x004 | .status => 0x008 | .ien => 0x00C | .cfg => 0x010 | .sps => 0x014 | .alpha => 0x018
  | .xlen => 0x01C | .ylen => 0x020 | .clen => 0x024 | .blen => 0x028 | .tlen => 0x02C | .smoothA => 0x030
  | .kmIter => 0x034 | .kmEps => 0x038 | .thresh => 0x03C | .centLo => 0x040 | .centHi => 0x044 | .kmStat => 0x048
  | .bestOff => 0x04C | .eyeOpen => 0x050 | .eyeMinHigh => 0x054 | .eyeMaxLow => 0x058 | .eyeStat => 0x05C
  | .emBestOff => 0x060 | .emMaxOpen => 0x064 | .emMinOpen => 0x068 | .emMinHigh => 0x06C | .emMaxLow => 0x070
  | .errInfo => 0x074

/-- `MemWrite(addr, 4, v)` (30_encoding.md R96). -/
def memWrite (addr : Nat) (v : Word) : Event := .bus { we := true, addr := BitVec.ofNat 16 addr, size := 2#2, wdata := v }
/-- `MemRead(addr, 4)` (30_encoding.md R96). -/
def memRead (addr : Nat) : Event := .bus { we := false, addr := BitVec.ofNat 16 addr, size := 2#2, wdata := 0#32 }

/-- `WR <reg>, v`. -/
def wr (r : Reg) (v : Word) : Event := memWrite r.offset v
/-- `WR X[i], v`. -/
def wrX (i : Nat) (v : Word) : Event := memWrite (0x4000 + 4 * i) v
/-- `WR Y[i], v`. -/
def wrY (i : Nat) (v : Word) : Event := memWrite (0x8000 + 4 * i) v
/-- `WR C[k], v`. -/
def wrC (k : Nat) (v : Word) : Event := memWrite (0x1000 + 4 * k) v
/-- `RD <reg>`. -/
def rd (r : Reg) : Event := memRead r.offset
/-- `RD X[i]`. -/
def rdX (i : Nat) : Event := memRead (0x4000 + 4 * i)
/-- `RD Y[i]`. -/
def rdY (i : Nat) : Event := memRead (0x8000 + 4 * i)
/-- `RD C[k]`. -/
def rdC (k : Nat) : Event := memRead (0x1000 + 4 * k)
/-- `RD BW[j]`. -/
def rdBW (j : Nat) : Event := memRead (0x2000 + 4 * j)
/-- `CMD <mnemonic>`. -/
def cmd (i : Instr) : Event := wr .cmd (encode i)

/-- `WAIT`: the poll of STATUS that reads BUSY = 0, the completion having come before it (log 1). -/
def wait : List Event := [.engine, rd .status]
/-- `RUN <mnemonic>`: `CMD <mnemonic>` followed by `WAIT`. -/
def run (i : Instr) : List Event := cmd i :: wait
/-- `CLRERR`. -/
def clrErr : Event := wr .status 0x00000004#32
/-- `CLRALL`: clears DONE, ERR, SAT, EBUSY. -/
def clrAll : Event := wr .status 0x0000001E#32

/-- `WR X[i], v` for consecutive words. -/
def wrXs : Nat → List Word → List Event
  | _, [] => []
  | i, v :: vs => wrX i v :: wrXs (i + 1) vs
/-- `WR C[k], v` for consecutive words. -/
def wrCs : Nat → List Word → List Event
  | _, [] => []
  | k, v :: vs => wrC k v :: wrCs (k + 1) vs
/-- `LOADX v0, v1, ...`. -/
def loadX (vs : List Word) : List Event := wrXs 0 vs ++ [wr .xlen (BitVec.ofNat 32 vs.length)]
/-- `LOADC c0, c1, ...`. -/
def loadC (vs : List Word) : List Event := wrCs 0 vs ++ [wr .clen (BitVec.ofNat 32 vs.length)]

end Sys2Proof.Machine
end

