-- ==== Sys2Proof/Machine/IdealKernel.lean ====
section
/-! DEFINITION. The ideal real-valued kernel that constrains TapGen (41_txfilter.md R112 to R114). No step computes with it:
it is the measure of property K3, over the reals (93_implementation_defined.md G1, G2). -/

namespace Sys2Proof.Machine

/-- `sinc(t) = sin(pi t) / (pi t)`, sinc(0) = 1 (41_txfilter.md R112). -/
noncomputable def sincPi (t : ℝ) : ℝ := if t = 0 then 1 else Real.sin (Real.pi * t) / (Real.pi * t)

/-- The raised-cosine prototype g_RC (41_txfilter.md R112). -/
noncomputable def raisedCosine (α t : ℝ) : ℝ :=
  if t = 0 then 1
  else if 0 < α ∧ |t| = 1 / (2 * α) then Real.pi / 4 * sincPi (1 / (2 * α))
  else sincPi t * Real.cos (Real.pi * α * t) / (1 - (2 * α * t) ^ 2)

/-- The standard root-raised-cosine pulse r (41_txfilter.md R113). -/
noncomputable def rootPulse (α t : ℝ) : ℝ :=
  if t = 0 then 1 - α + 4 * α / Real.pi
  else if 0 < α ∧ |t| = 1 / (4 * α) then
    α / √2 * ((1 + 2 / Real.pi) * Real.sin (Real.pi / (4 * α)) + (1 - 2 / Real.pi) * Real.cos (Real.pi / (4 * α)))
  else
    (Real.sin (Real.pi * t * (1 - α)) + 4 * α * t * Real.cos (Real.pi * t * (1 + α))) /
      (Real.pi * t * (1 - (4 * α * t) ^ 2))

/-- The root-raised-cosine prototype g_RRC, scaled to 1 at t = 0 (41_txfilter.md R113; 90_conflicts.md C1). -/
noncomputable def rootRaisedCosine (α t : ℝ) : ℝ := rootPulse α t / rootPulse α 0

/-- The prototype of a kind. -/
noncomputable def prototypeOf : KernelKind → ℝ → ℝ → ℝ
  | .rc => raisedCosine
  | .rrc => rootRaisedCosine

/-- The roll-off `α = A / 2^24` (41_txfilter.md R112). -/
noncomputable def rollOff (A : Nat) : ℝ := (A : ℝ) / 16777216

/-- The time of tap k, `t = (k - 3S) / S` (41_txfilter.md R112). -/
noncomputable def tapTime (S k : Nat) : ℝ := ((k : ℝ) - 3 * S) / S

/-- `g[k]` (41_txfilter.md R114). -/
noncomputable def prototypeTap (kind : KernelKind) (S A k : Nat) : ℝ := prototypeOf kind (rollOff A) (tapTime S k)

/-- `E`, the sum of the squares of g (41_txfilter.md R114). -/
noncomputable def prototypeEnergy (kind : KernelKind) (S A : Nat) : ℝ :=
  ∑ k ∈ Finset.range (6 * S + 1), prototypeTap kind S A k ^ 2

/-- `h[k] = g[k] * √S / √E` (41_txfilter.md R114). -/
noncomputable def idealTap (kind : KernelKind) (S A k : Nat) : ℝ :=
  prototypeTap kind S A k * √(S : ℝ) / √(prototypeEnergy kind S A)

/-- Property K3 of TapGen with the bound TAP_TOL, an open parameter of at least 0.5 (41_txfilter.md R114; 00_scope.md R6;
log 7). -/
def TapGenAccurate (tapTol : ℝ) : Prop :=
  1 / 2 ≤ tapTol ∧
    ∀ (kind : KernelKind) (S A k : Nat), 1 ≤ S → S ≤ 64 → A ≤ Config.one → k ≤ 6 * S →
      |((tapGen kind S A k).toInt : ℝ) - 16777216 * idealTap kind S A k| ≤ tapTol

end Sys2Proof.Machine
end

