-- ==== Sys2Proof/Safety.lean ====
section
/-! DEFINITION. The terms the statements use: the error causes as the prose of 60_exceptions.md gives them, an accepted
command, a completion and what it leaves unchanged, the sound states, the end state of a run. -/

namespace Sys2Proof.Machine

/-! ### The error causes (60_exceptions.md R181 to R185), written from the prose; Machine/Checks.lean follows the table -/

/-- ILLEGAL_OP: `w[31:8]` is not 0, or `w[7:0]` is not in the set of R181. -/
def IllegalWord (w : Word) : Prop := w.toNat / 256 ≠ 0 ∨ w.toNat % 256 ∉ legalOpcodes.map BitVec.toNat

/-- "The commands that read SPS" (R182). -/
def ReadsSps (i : Instr) : Prop :=
  i ∈ [Instr.kgen, .txfilt, .txhold, .txshape, .rxfilt, .rxmatch, .rxsmooth, .rxmavg, .eyesrch, .decim, .recover, .eyemet]

/-- "The commands that read X" (R183). -/
def ReadsX (i : Instr) : Prop :=
  i ∈ [Instr.txfilt, .txhold, .txshape, .rxfilt, .rxmatch, .rxsmooth, .rxmavg, .eyesrch, .decim, .recover, .eyemet,
    .thresh, .decideBits, .decodeBits]

/-- BAD_CFG (R182). -/
def BadCfg (i : Instr) (s : State) : Prop :=
  (ReadsSps i ∧ (s.sps = 0 ∨ s.sps > 64)) ∨
  (i = .kgen ∧ (s.fkind = 0 ∨ s.fkind = 3)) ∨
  ((i = .txfilt ∨ i = .rxfilt) ∧ s.fkind = 3) ∨
  (i = .kgen ∧ s.alpha > 0x01000000) ∨
  ((i = .rxsmooth ∨ (i = .rxfilt ∧ (s.enc = 2 ∨ s.enc = 3))) ∧ s.smoothA > 0x01000000) ∨
  (i = .decim ∧ s.bestOff ≥ s.sps)

/-- BAD_LEN, where there is no BAD_CFG (R183). -/
def BadLen (i : Instr) (s : State) : Prop :=
  (ReadsX i ∧ s.xlen > 4096) ∨
  ((i = .txhold ∨ i = .txshape ∨ i = .txfilt) ∧ s.xlen * s.sps > 4096) ∨
  (i = .bresize ∧ s.tlen > 4096)

/-- NO_KERNEL, where there is no BAD_CFG and no BAD_LEN (R185). -/
def NoKernel (i : Instr) (s : State) : Prop :=
  (i = .txshape ∨ i = .rxmatch ∨ (i = .txfilt ∧ (s.fkind = 1 ∨ s.fkind = 2)) ∨
    (i = .rxfilt ∧ ¬(s.enc = 2 ∨ s.enc = 3) ∧ (s.fkind = 1 ∨ s.fkind = 2))) ∧ (s.clen = 0 ∨ s.clen > 385)

/-- The acceptance checks of command `i` are these three conditions, the lowest code first (60_exceptions.md R184). -/
def ChecksAre (i : Instr) (badCfg badLen noKernel : State → Prop) : Prop :=
  ∀ s, (acceptanceCheck i s = some .badCfg ↔ badCfg s) ∧
    (acceptanceCheck i s = some .badLen ↔ ¬badCfg s ∧ badLen s) ∧
    (acceptanceCheck i s = some .noKernel ↔ ¬badCfg s ∧ ¬badLen s ∧ noKernel s) ∧
    (acceptanceCheck i s = none ↔ ¬badCfg s ∧ ¬badLen s ∧ ¬noKernel s)

/-- "SPS = 0 or SPS > 64". -/
def SpsOutside (s : State) : Prop := s.sps = 0 ∨ s.sps > 64

/-- "XLEN > 4096". -/
def XlenOver (s : State) : Prop := s.xlen > 4096

/-- The condition of a check that a command does not have. -/
def Never (_ : State) : Prop := False

/-! ### An accepted command and its completion -/

/-- Command `i` stands accepted: BUSY = 1 and its acceptance checks hold, as they did at acceptance, because no register
changes in between (10_state.md R61 to R63). -/
def Accepted (i : Instr) (s : State) : Prop := s.status.busy = true ∧ acceptanceCheck i s = none

/-- What every completion does to the flags, OPLATCH and the pins: BUSY <- 0, DONE <- 1, SAT and SHORT set where said, the
other flags as before (10_state.md R61). -/
def Completes (s t : State) (saturated short : Prop) : Prop :=
  t.status.busy = false ∧ t.status.done = true ∧
  (t.status.sat = true ↔ s.status.sat = true ∨ saturated) ∧ (t.status.short = true ↔ s.status.short = true ∨ short) ∧
  t.status.err = s.status.err ∧ t.status.errcode = s.status.errcode ∧ t.status.ebusy = s.status.ebusy ∧
  t.opLatch = none ∧ t.rst = s.rst ∧ t.events = s.events.tail ∧ t.reply = .none

/-- Every byte of a memory reads as before. -/
def SameBytes (m n : Memory) : Prop := ∀ a, n.byte a = m.byte a

/-- X, C, B and BANK are as before: the frame of a command that writes Y. -/
def KeepsAllButY (s t : State) : Prop :=
  t.status.bank = s.status.bank ∧ SameBytes s.source t.source ∧ SameBytes s.coef t.coef ∧ SameBytes s.bits t.bits

/-- X, Y, C and BANK are as before: the frame of a command that writes B. -/
def KeepsAllButB (s t : State) : Prop :=
  t.status.bank = s.status.bank ∧ SameBytes s.source t.source ∧ SameBytes s.dest t.dest ∧ SameBytes s.coef t.coef

/-- X, Y, B and BANK are as before: the frame of KGEN. -/
def KeepsAllButC (s t : State) : Prop :=
  t.status.bank = s.status.bank ∧ SameBytes s.source t.source ∧ SameBytes s.dest t.dest ∧ SameBytes s.bits t.bits

/-- X, Y, C, B and BANK are as before: the frame of a command that writes registers only. -/
def KeepsMemories (s t : State) : Prop :=
  t.status.bank = s.status.bank ∧ SameBytes s.source t.source ∧ SameBytes s.dest t.dest ∧ SameBytes s.coef t.coef ∧
    SameBytes s.bits t.bits

/-! ### Eye levels, declaratively -/

/-- `v` is the least of the values `f c` over the indices with `P`, and 0 when there is none. -/
def LeastOrZero (P : Nat → Prop) (f : Nat → Int) (v : Int) : Prop :=
  ((∃ c, P c ∧ f c = v) ∧ ∀ c, P c → v ≤ f c) ∨ ((∀ c, ¬P c) ∧ v = 0)

/-- `v` is the greatest of the values `f c` over the indices with `P`, and 0 when there is none. -/
def GreatestOrZero (P : Nat → Prop) (f : Nat → Int) (v : Int) : Prop :=
  ((∃ c, P c ∧ f c = v) ∧ ∀ c, P c → f c ≤ v) ∨ ((∀ c, ¬P c) ∧ v = 0)

/-- A centre of offset o: `c = i*S + o` with i >= 1 and c + S <= M - 1 (43_clock_recovery.md R141). -/
def IsCentre (M S o c : Nat) : Prop := (∃ i, 1 ≤ i ∧ c = i * S + o) ∧ c + S + 1 ≤ M

/-- A valid positive centre (43_clock_recovery.md R141). -/
def ValidPositive (s : State) (o c : Nat) : Prop :=
  IsCentre s.xlen s.sps o c ∧ s.x (c - s.sps) > 0 ∧ s.x c > 0 ∧ s.x (c + s.sps) > 0

/-- A valid negative centre (43_clock_recovery.md R141). -/
def ValidNegative (s : State) (o c : Nat) : Prop :=
  IsCentre s.xlen s.sps o c ∧ s.x (c - s.sps) < 0 ∧ s.x c < 0 ∧ s.x (c + s.sps) < 0

/-- Offset o is a candidate whose levels are `hi` and `lo` (43_clock_recovery.md R141). -/
def EyeCandidate (s : State) (o : Nat) (hi lo : Int) : Prop :=
  o < s.sps ∧ (∃ c, ValidPositive s o c ∨ ValidNegative s o c) ∧
    LeastOrZero (ValidPositive s o) s.x hi ∧ GreatestOrZero (ValidNegative s o) s.x lo

/-- A sample of offset o: the indices o, o + S, o + 2S, ... below M (44_eye_metrics.md R151). -/
def IsOffsetSample (M S o c : Nat) : Prop := (∃ i, c = i * S + o) ∧ c < M

/-- The levels of offset o for EYEMET (44_eye_metrics.md R151). -/
def MetricLevels (s : State) (o : Nat) (hi lo : Int) : Prop :=
  LeastOrZero (fun c => IsOffsetSample s.xlen s.sps o c ∧ s.x c > 0) s.x hi ∧
    GreatestOrZero (fun c => IsOffsetSample s.xlen s.sps o c ∧ s.x c ≤ 0) s.x lo

/-! ### Sound states -/

/-- Every listed address of a memory lies below a bound. -/
def Memory.within (m : Memory) (n : Nat) : Prop := ∀ p ∈ m.cells, p.1 < n

/-- What holds of every state a run reaches: the error flags agree (10_state.md R29), OPLATCH holds a command whose checks
passed exactly while BUSY = 1 (R21, R58, R61, R62), a reset has discarded the command (70_reset_and_hazards.md R201), the
memories are in canonical form within their sizes (10_state.md R55 to R57), BLEN <= 4096 (R44). -/
structure State.Sound (s : State) : Prop where
  err_iff : s.status.err = true ↔ s.status.errcode ≠ 0#4
  errcode_le : s.status.errcode.toNat ≤ 4
  idle : s.status.busy = false → s.opLatch = none
  busy : s.status.busy = true → ∃ i, s.opLatch = some (opField (encode i)) ∧ acceptanceCheck i s = none ∧
    s.status.err = false ∧ s.status.done = false ∧ s.status.short = false
  held : s.rst = true → s.status.busy = false
  buf0_wf : s.buf0.wf
  buf1_wf : s.buf1.wf
  coef_wf : s.coef.wf
  bits_wf : s.bits.wf
  buf0_size : s.buf0.within (4 * 4096)
  buf1_size : s.buf1.within (4 * 4096)
  coef_size : s.coef.within (4 * 385)
  bits_size : s.bits.within 4096
  blen_le : s.blen ≤ 4096

/-- The eye registers agree with one another (10_state.md R53, R54). -/
structure State.EyeCoherent (s : State) : Prop where
  opening : (s.regs.eyeOpen.toNat : Int) = s.regs.eyeMinHigh.toInt - s.regs.eyeMaxLow.toInt
  high : 0 ≤ s.regs.eyeMinHigh.toInt
  low : s.regs.eyeMaxLow.toInt ≤ 0
  count : s.regs.eyeStat.vcnt.toNat ≤ 4094
  default : s.regs.eyeStat.found = false →
    s.regs.eyeOpen = 0#32 ∧ s.regs.eyeMinHigh = 0#32 ∧ s.regs.eyeMaxLow = 0#32 ∧ s.regs.eyeStat.hiSeen = false ∧
      s.regs.eyeStat.loSeen = false ∧ s.regs.eyeStat.vcnt = 0#13

/-- The metrics registers agree with one another (10_state.md R59). -/
structure State.MetricsCoherent (s : State) : Prop where
  opening : (s.regs.emMaxOpen.toNat : Int) = s.regs.emMinHigh.toInt - s.regs.emMaxLow.toInt
  high : 0 ≤ s.regs.emMinHigh.toInt
  low : s.regs.emMaxLow.toInt ≤ 0
  order : s.regs.emMinOpen.toNat ≤ s.regs.emMaxOpen.toNat

/-- "the two sorted final centers", CENT_LO <= CENT_HI (10_state.md R50). -/
def State.CentresSorted (s : State) : Prop := s.regs.centLo.toInt ≤ s.regs.centHi.toInt

/-! ### The causes of a flag's change (10_state.md R33) -/

/-- The next event is the reset step. -/
def Resetting (s : State) : Prop := ∃ rest, s.events = .rst true :: rest

/-- The next event is a completion. -/
def Completing (s : State) : Prop :=
  s.rst = false ∧ s.status.busy = true ∧ (s.events = [] ∨ ∃ rest, s.events = .engine :: rest)

/-- The next event is the completion of a command of a set. -/
def CompletingOneOf (is : List Instr) (s : State) : Prop :=
  Completing s ∧ ∃ op i, s.opLatch = some op ∧ decodeOp op = some i ∧ i ∈ is

/-- The next event is a host write of `v` to what `t` names. -/
def HostWrites (s : State) (t : Target) (v : Word) : Prop :=
  s.rst = false ∧ ∃ r rest, s.events = .bus r :: rest ∧ r.we = true ∧ r.target = some t ∧ r.wdata = v

/-- The next event is an acceptance. -/
def Accepting (s : State) : Prop :=
  s.status.busy = false ∧ s.status.err = false ∧ ∃ i, HostWrites s (.reg .cmd) (encode i) ∧ acceptanceCheck i s = none

/-- The next event is a command-error entry. -/
def Refusing (s : State) : Prop :=
  s.status.busy = false ∧ s.status.err = false ∧
    ∃ w, HostWrites s (.reg .cmd) w ∧ ∀ i, w = encode i → acceptanceCheck i s ≠ none

/-- The next event is the host writing 1 to bit n of STATUS while idle. -/
def Clearing (n : Nat) (s : State) : Prop :=
  s.status.busy = false ∧ ∃ v, HostWrites s (.reg .status) v ∧ v.getLsbD n = true

/-- The next event is a host write to a legal address while BUSY = 1. -/
def WritingWhileBusy (s : State) : Prop := s.status.busy = true ∧ ∃ t v, HostWrites s t v

/-! ### The register map (10_state.md R23) -/

/-- The implemented bits of the RW registers; none for the other registers (10_state.md R23). -/
def writeMask : Reg → Option Word
  | .ien => some 0x00000006#32
  | .cfg => some 0x00000033#32
  | .sps => some 0x0000007F#32
  | .alpha => some 0xFFFFFFFF#32
  | .xlen => some 0x00001FFF#32
  | .clen => some 0x000001FF#32
  | .tlen => some 0x00001FFF#32
  | .smoothA => some 0xFFFFFFFF#32
  | .kmIter => some 0x000000FF#32
  | .kmEps => some 0xFFFFFFFF#32
  | .thresh => some 0xFFFFFFFF#32
  | .bestOff => some 0x0000007F#32
  | _ => none

/-- What each of the thirty registers reads as, in the fields the commands compute with: a register made of fields is the sum
of its fields, each at the weight of its lowest bit, so every reserved bit reads 0 (10_state.md R23 to R60). -/
def RegistersReadTheirFields (s : State) : Prop :=
  -- R24, R25
  s.readReg .id = 0x50534631#32 ∧ s.readReg .cmd = 0#32 ∧
  -- R26
  (s.readReg .status).toNat = s.status.busy.toNat + 2 * s.status.done.toNat + 4 * s.status.err.toNat +
    8 * s.status.sat.toNat + 16 * s.status.ebusy.toNat + 32 * s.status.short.toNat + 64 * s.status.bank.toNat +
    256 * s.status.errcode.toNat ∧
  -- R35 to R38
  (s.readReg .ien).toNat = 2 * s.regs.ien.doneIe.toNat + 4 * s.regs.ien.errIe.toNat ∧
  (s.readReg .cfg).toNat = s.fkind + 16 * s.enc ∧
  -- R39 to R48
  (s.readReg .sps).toNat = s.sps ∧ (s.readReg .alpha).toNat = s.alpha ∧ (s.readReg .xlen).toNat = s.xlen ∧
  (s.readReg .ylen).toNat = s.ylen ∧ (s.readReg .clen).toNat = s.clen ∧ (s.readReg .blen).toNat = s.blen ∧
  (s.readReg .tlen).toNat = s.tlen ∧ (s.readReg .smoothA).toNat = s.smoothA ∧ (s.readReg .kmIter).toNat = s.kmIter ∧
  (s.readReg .kmEps).toNat = s.kmEps ∧
  -- R49 to R51
  (s.readReg .thresh).toInt = s.thresh ∧ s.readReg .centLo = s.regs.centLo ∧ s.readReg .centHi = s.regs.centHi ∧
  (s.readReg .kmStat).toNat = s.regs.kmStat.iters.toNat + 256 * s.regs.kmStat.conv.toNat ∧
  -- R52 to R54
  (s.readReg .bestOff).toNat = s.bestOff ∧ s.readReg .eyeOpen = s.regs.eyeOpen ∧
  s.readReg .eyeMinHigh = s.regs.eyeMinHigh ∧ s.readReg .eyeMaxLow = s.regs.eyeMaxLow ∧
  (s.readReg .eyeStat).toNat = s.regs.eyeStat.found.toNat + 2 * s.regs.eyeStat.hiSeen.toNat +
    4 * s.regs.eyeStat.loSeen.toNat + 65536 * s.regs.eyeStat.vcnt.toNat ∧
  -- R59, R60
  (s.readReg .emBestOff).toNat = s.regs.emBestOff.toNat ∧ s.readReg .emMaxOpen = s.regs.emMaxOpen ∧
  s.readReg .emMinOpen = s.regs.emMinOpen ∧ s.readReg .emMinHigh = s.regs.emMinHigh ∧
  s.readReg .emMaxLow = s.regs.emMaxLow ∧ s.readReg .errInfo = s.regs.errInfo

/-- The unmapped ranges (20_memory.md R71). -/
def Unmapped (a : Nat) : Prop :=
  (0x0078 ≤ a ∧ a ≤ 0x0FFF) ∨ (0x1604 ≤ a ∧ a ≤ 0x1FFF) ∨ (0x2200 ≤ a ∧ a ≤ 0x3FFF) ∨ (0xC000 ≤ a ∧ a ≤ 0xFFFF)

/-! ### The sums of the rules, over integer indices (00_scope.md R7) -/

/-- `u[m]`: X[m / S] where S divides m, 0 <= m < M = N*S, else 0 (41_txfilter.md R117). -/
def upsampled (s : State) (m : Int) : Int :=
  if 0 ≤ m ∧ m < s.xlen * s.sps ∧ m % s.sps = 0 then s.x (m / s.sps).toNat else 0

/-- `v[p]`: the full convolution of u with the kernel (41_txfilter.md R118). -/
def fullConvolution (s : State) (p : Int) : Int := ∑ k ∈ Finset.range s.clen, s.c k * upsampled s (p - k)

/-- The symbol form of a TXSHAPE output: `Σ_j C[n + G - j*S] * X[j]` over the j with 0 <= n + G - j*S <= L - 1
(41_txfilter.md R119). -/
def symbolSum (s : State) (n : Nat) : Int :=
  ∑ j ∈ Finset.range s.xlen,
    if 0 ≤ (n + s.clen / 2 : Nat) - (j * s.sps : Int) ∧ (n + s.clen / 2 : Nat) - (j * s.sps : Int) ≤ (s.clen : Int) - 1 then
      s.c ((n + s.clen / 2 : Nat) - (j * s.sps : Int)).toNat * s.x j
    else 0

/-- The accumulation of RXMATCH: C backwards over X extended by zeros (42_rxfilter.md R133). -/
def matchedSum (s : State) (n : Nat) : Int :=
  ∑ k ∈ Finset.range s.clen,
    if 0 ≤ (n + s.clen / 2 : Int) - k ∧ (n + s.clen / 2 : Int) - k < s.xlen then
      s.c (s.clen - 1 - k) * s.x ((n + s.clen / 2 : Int) - k).toNat
    else 0

/-- The value THRESH and DECIDE look at: X[i], or sabs(X[i]) under a ternary encoding (45_decoder.md R161, R164). -/
def decisionValue (s : State) (i : Nat) : Int := if s.enc = 2 ∨ s.enc = 3 then sabs (s.x i) else s.x i

/-- Some X[i] = MINW under a ternary encoding (45_decoder.md R161). -/
def AbsSaturation (s : State) : Prop := (s.enc = 2 ∨ s.enc = 3) ∧ ∃ i, i < s.xlen ∧ s.x i = -2147483648

/-- The truncated mean of a cluster, or the old centre when it is empty (45_decoder.md R162). -/
def clusterMean (v : Nat → Int) (cluster : Finset Nat) (old : Int) : Int :=
  if cluster.card = 0 then old else tdiv (∑ i ∈ cluster, v i) cluster.card

/-- One iteration from centres (a, b): the pair of new centres (45_decoder.md R162). -/
def nextCentres (v : Nat → Int) (N : Nat) (c : Int × Int) : Int × Int :=
  (clusterMean v ((Finset.range N).filter fun i => |v i - c.1| ≤ |v i - c.2|) c.1,
   clusterMean v ((Finset.range N).filter fun i => ¬|v i - c.1| ≤ |v i - c.2|) c.2)

/-- Both centres moved by less than eps (45_decoder.md R162). -/
def Settled (eps : Nat) (c d : Int × Int) : Prop := |d.1 - c.1| < eps ∧ |d.2 - c.2| < eps

/-! ### Runs -/

/-- `n` steps, one after another, up to the first that stops. -/
def stepTimes : Nat → State → Host.Outcome State Fault Refusal
  | 0, s => .next s
  | n + 1, s =>
    match step s with
    | .next t => stepTimes n t
    | .fault f => .fault f
    | .refused r => .refused r

/-- A run has ended: the host has taken its last step and BUSY = 0 (70_reset_and_hazards.md R214). -/
def State.atRest (s : State) : Prop := s.events = [] ∧ s.status.busy = false

/-- Two end states agree: all registers and flags but EBUSY, and every word and bit within the lengths; what is unspecified
is excluded (70_reset_and_hazards.md R214). EBUSY is left out because it reports what the host did meanwhile. -/
structure SameEndState (s t : State) : Prop where
  regs : t.regs = s.regs
  flags : { t.status with ebusy := s.status.ebusy } = s.status
  x : ∀ i, i < s.xlen → t.xWord i = s.xWord i
  y : ∀ i, i < s.ylen → t.yWord i = s.yWord i
  c : ∀ k, k < s.clen → t.cWord k = s.cWord k
  b : ∀ i, i < s.blen → t.bBit i = s.bBit i

end Sys2Proof.Machine
end

