-- ==== Sys2Proof/Certificates/Slice0/Obligations.lean ====
section
/-! DEFINITION. The statements for the provers, one definition each. What the model chose itself is said in the docstring
with its log entry. -/

open Sys2Proof Sys2Proof.Machine

/-! ### Arithmetic (00_scope.md section 6) -/

/-- R9: `rnd(a) = floor((a + 2^23) / 2^24)` for every integer, `rnd(ONE*v) = v`, and the rule's five examples. -/
def Obligations.RndIsNearestTiesUp : Prop :=
  (∀ a : Int, rnd a = ⌊((a : ℚ) + 2 ^ 23) / 2 ^ 24⌋) ∧ (∀ v : Int, rnd (16777216 * v) = v) ∧
  rnd 0 = 0 ∧ rnd (2 ^ 23) = 1 ∧ rnd (2 ^ 23 - 1) = 0 ∧ rnd (-2 ^ 23) = 0 ∧ rnd (-2 ^ 23 - 1) = -1

/-- From R10: `sat` clamps to [MINW, MAXW], `clips` says exactly when it did, and the word it is stored in wraps nothing. -/
def Obligations.SatClampsToTheWordRange : Prop :=
  ∀ v : Int, (v > 2147483647 → sat v = 2147483647) ∧ (v < -2147483648 → sat v = -2147483648) ∧
    (-2147483648 ≤ v ∧ v ≤ 2147483647 → sat v = v) ∧ (clips v = true ↔ v < -2147483648 ∨ v > 2147483647) ∧
    (wordOfInt (sat v)).toInt = sat v

/-- R12: the divider truncates toward zero, is symmetric in sign, its examples; the mean of a non-empty list lies between its
bounds. -/
def Obligations.TdivTruncatesTowardZero : Prop :=
  (∀ s n : Int, 0 < n → (0 ≤ s → tdiv s n = ⌊(s : ℚ) / n⌋) ∧ (s < 0 → tdiv s n = -⌊((-s : Int) : ℚ) / n⌋)) ∧
  (∀ s n : Int, 0 < n → tdiv (-s) n = -tdiv s n) ∧
  (tdiv 7 2 = 3 ∧ tdiv (-7) 2 = -3 ∧ tdiv (-4) 3 = -1 ∧ tdiv 0 5 = 0) ∧
  (∀ (l : List Int) (lo hi : Int), l ≠ [] → (∀ v ∈ l, lo ≤ v ∧ v ≤ hi) →
    lo ≤ tdiv l.sum l.length ∧ tdiv l.sum l.length ≤ hi)

/-- R13: the saturating absolute value of a word value, in [0, MAXW]; the case MINW counts as a saturation: under a ternary
encoding THRESH, DECIDE and DECODE then end with SAT = 1. -/
def Obligations.SabsSaturates : Prop :=
  (∀ x : Int, -2147483648 ≤ x → x ≤ 2147483647 →
    (0 ≤ x → sabs x = x) ∧ (-2147483648 < x ∧ x < 0 → sabs x = -x) ∧ (x = -2147483648 → sabs x = 2147483647) ∧
      0 ≤ sabs x ∧ sabs x ≤ 2147483647) ∧
  (∀ (i : Instr) (s : State), i = .thresh ∨ i = .decideBits ∨ i = .decodeBits → Accepted i s → AbsSaturation s →
    ∃ t, exec i s = .next t ∧ t.status.sat = true)

/-! ### Command words (30_encoding.md) -/

/-- Words written out from the table of R92 decode to their commands; three illegal ones (R94) to none. -/
def Obligations.TableWordsDecode : Prop :=
  decode 0x00000001#32 = some .xchg ∧ decode 0x00000010#32 = some .kgen ∧ decode 0x00000013#32 = some .txshape ∧
  decode 0x00000016#32 = some .rxsmooth ∧ decode 0x00000022#32 = some .recover ∧ decode 0x00000023#32 = some .eyemet ∧
  decode 0x00000032#32 = some .decodeBits ∧ decodeTableWord 32 0x33 = some .bresize ∧
  decode 0x00000018#32 = none ∧ decode 0x00000112#32 = none ∧ decode 0x000000FF#32 = none

/-- R92: a word selects a command exactly when it is that row's word, and every other word is illegal; so decode and encode
agree in both directions, and the latched byte alone (R58) selects the command too. -/
def Obligations.DecodeExactlyTheTable : Prop :=
  (∀ (w : Word) (i : Instr), i.wellFormed = true → (decode w = some i ↔ w = encode i)) ∧
  (∀ w : Word, decode w = none ↔ IllegalWord w) ∧
  (∀ i : Instr, i.wellFormed = true → decode (encode i) = some i ∧ decodeOp ((encode i).extractLsb' 0 8) = some i)

/-! ### Steps, issue and completion (10_state.md section 7) -/

/-- A step runs the decoded command: where the next event is the CMD write of a command's word, and where it is the engine's
completion of the latched one. The step adds nothing around exec; exec itself takes the event off the input list (log 1,
log 2). -/
def Obligations.StepRunsTheDecodedCommand : Prop :=
  (∀ (s : State) (w : Word) (i : Instr) (rest : List Event), s.events = .bus (cmdWrite w) :: rest → s.rst = false →
    s.status.busy = false → decode w = some i → i.wellFormed = true → step s = exec i s) ∧
  (∀ (s : State) (op : BitVec 8) (i : Instr), (s.events = [] ∨ ∃ rest, s.events = .engine :: rest) → s.rst = false →
    s.status.busy = true → s.opLatch = some op → decodeOp op = some i → step s = exec i s) ∧
  (∀ (s : State) (i : Instr), s.rst = false → s.status.busy = false →
    step (s.withFetchWord 32 (encode i).toNat) = exec i (s.withFetchWord 32 (encode i).toNat)) ∧
  (∀ (s t : State) (i : Instr), exec i s = .next t → t.events = s.events.tail)

/-- From R61, R62: for every command whose checks hold, from idle with ERR = 0: the step on its CMD write accepts it: OPLATCH is
loaded, BUSY set, DONE and SHORT cleared, and every other flag, register, memory and pin is as before; and the engine's step
after it is the command's completion, with the checks still holding. (The event list and the form of the answer are the
model's, log 1, log 9.) -/
def Obligations.AcceptThenComplete : Prop :=
  ∀ (i : Instr) (s : State) (rest : List Event), s.status.busy = false → s.status.err = false → s.rst = false →
    acceptanceCheck i s = none → s.events = .bus (cmdWrite (encode i)) :: .engine :: rest →
    ∃ t, step s = .next t ∧ Accepted i t ∧
      t = { s with
        status := { s.status with busy := true, done := false, short := false },
        opLatch := some ((encode i).extractLsb' 0 8), events := .engine :: rest, reply := .written } ∧
      step t = exec i t ∧ ∃ u, step t = .next u ∧ u.status.busy = false ∧
      u.status.done = true ∧ u.events = rest

/-- R62: the issue of a word, step by step in the rule's order, and everything each outcome changes. The error causes are the
prose of R181 to R185. -/
def Obligations.CommandIssueFollowsItsOrder : Prop :=
  ∀ (s : State) (w : Word) (rest : List Event), s.events = .bus (cmdWrite w) :: rest → s.rst = false →
    let done : State := { s with events := rest, reply := .written }
    let refusedWith (e : BitVec 4) : State :=
      { done with status := { s.status with err := true, errcode := e }, regs := { s.regs with errInfo := w } }
    (s.status.busy = true → step s = .next { done with status := { s.status with ebusy := true } }) ∧
    (s.status.busy = false → s.status.err = true → step s = .next done) ∧
    (s.status.busy = false → s.status.err = false →
      (IllegalWord w → step s = .next (refusedWith 1#4)) ∧
      (∀ i, w = encode i →
        (BadCfg i s → step s = .next (refusedWith 2#4)) ∧
        (¬BadCfg i s → BadLen i s → step s = .next (refusedWith 3#4)) ∧
        (¬BadCfg i s → ¬BadLen i s → NoKernel i s → step s = .next (refusedWith 4#4)) ∧
        (¬BadCfg i s → ¬BadLen i s → ¬NoKernel i s →
          step s = .next { done with
            status := { s.status with busy := true, done := false, short := false },
            opLatch := some (w.extractLsb' 0 8) })))

/-- R182, R183, R185: the checks of every command are the causes in the rules' prose, the lowest code first (R184). -/
def Obligations.AcceptanceChecksMatchTheProse : Prop :=
  ∀ (i : Instr) (s : State),
    (acceptanceCheck i s = some .badCfg ↔ BadCfg i s) ∧
    (acceptanceCheck i s = some .badLen ↔ ¬BadCfg i s ∧ BadLen i s) ∧
    (acceptanceCheck i s = some .noKernel ↔ ¬BadCfg i s ∧ ¬BadLen i s ∧ NoKernel i s) ∧
    (acceptanceCheck i s = none ↔ ¬BadCfg i s ∧ ¬BadLen i s ∧ ¬NoKernel i s)

/-- R186: for every command, an issue whose checks yield an error writes ERR, ERRCODE and ERRINFO and nothing else (BUSY
stays 0, OPLATCH is not loaded); without an error it is accepted. exec says so of each. -/
def Obligations.IssueRefusesOrAccepts : Prop :=
  ∀ (i : Instr) (s : State), s.status.busy = false → s.status.err = false →
    (∀ e, acceptanceCheck i s = some e →
      exec i s = .next { s with
        status := { s.status with err := true, errcode := errNumber e }, regs := { s.regs with errInfo := encode i },
        events := s.events.tail, reply := .written }) ∧
    (acceptanceCheck i s = none →
      exec i s = .next { s with
        status := { s.status with busy := true, done := false, short := false },
        opLatch := some ((encode i).extractLsb' 0 8), events := s.events.tail, reply := .written })

/-- R187: while ERR = 1 every CMD write is dropped; a write to STATUS with bit 2 = 1 clears ERR and ERRCODE, and the
other W1C flags whose bit it has, and leaves ERRINFO, SHORT, BANK, OPLATCH, every register and every memory, and commands are
accepted again; every other access works as if ERR were 0. -/
def Obligations.ErrorLocksUntilAcknowledged : Prop :=
  ∀ (s : State) (rest : List Event), s.rst = false → s.status.busy = false → s.status.err = true →
    (∀ w, s.events = .bus (cmdWrite w) :: rest → step s = .next { s with events := rest, reply := .written }) ∧
    (∀ v, v.getLsbD 2 = true → s.events = wr .status v :: rest →
      ∃ t, step s = .next t ∧
        t = { s with
          status := { s.status with
            done := s.status.done && !v.getLsbD 1, err := false, sat := s.status.sat && !v.getLsbD 3,
            ebusy := s.status.ebusy && !v.getLsbD 4, errcode := 0#4 },
          events := rest, reply := .written } ∧
        ∀ i, acceptanceCheck i s = none → ∃ u, exec i t = .next u ∧ u.status.busy = true) ∧
    (∀ r, s.events = .bus r :: rest → r.target ≠ some (.reg .cmd) → r.target ≠ some (.reg .status) →
      ∃ t u, step s = .next t ∧ step { s with status := { s.status with err := false, errcode := 0#4 } } = .next u ∧
        u = { t with status := { t.status with err := false, errcode := 0#4 } } ∧ t.status.err = true)

/-- From R63: while BUSY = 1 a transaction changes no register, memory or latch; a write to a legal address sets EBUSY, a read or a
bus error sets nothing; reads of the thirteen registers the rule names are valid. -/
def Obligations.BusyHostStepsChangeOnlyEbusy : Prop :=
  ∀ (s : State) (r : BusReq) (rest : List Event), s.status.busy = true → s.rst = false → s.events = .bus r :: rest →
    ∃ t, step s = .next t ∧ t.regs = s.regs ∧ t.buf0 = s.buf0 ∧ t.buf1 = s.buf1 ∧ t.coef = s.coef ∧ t.bits = s.bits ∧
      t.opLatch = s.opLatch ∧ t.rst = false ∧ t.events = rest ∧
      t.status = { s.status with ebusy := s.status.ebusy || (r.we && r.target.isSome) } ∧
      (r.we = false → ∀ g ∈ [Reg.id, .cmd, .status, .ien, .cfg, .sps, .alpha, .xlen, .tlen, .smoothA, .kmIter, .kmEps,
        .errInfo], r.target = some (.reg g) → t.reply = .read (s.readReg g))

/-- "No result depends on the duration" (R212): any transactions between acceptance and completion leave the same end state
as none, EBUSY apart. -/
def Obligations.HostStepsMeanwhileDoNotMatter : Prop :=
  ∀ (s : State) (i : Instr) (rs : List BusReq), s.status.busy = true → s.rst = false →
    s.opLatch = some ((encode i).extractLsb' 0 8) →
    ∃ t u : State, step { s with events := [.engine] } = .next t ∧
      stepTimes (rs.length + 1) { s with events := rs.map .bus ++ [.engine] } = .next u ∧ SameEndState t u

/-! ### Reset (70_reset_and_hazards.md section 1) -/

/-- From R200, R201: the reset step from any state, also while BUSY = 1, and the pin: while high no transaction is answered (that
the request is then gone is the model's choice, log 8); the first state after it goes low is the reset state. An empty list of
cells is the model's form of a memory whose every word is unspecified (log 3). -/
def Obligations.ResetStepRestoresTheTable : Prop :=
  (∀ (s : State) (rest : List Event), s.events = .rst true :: rest →
    ∃ t, step s = .next t ∧ t.status = State.reset.status ∧ t.regs = State.reset.regs ∧ t.opLatch = none ∧
      t.irq = false ∧ t.reply = .none ∧ t.rst = true ∧ t.events = rest ∧ t.buf0.cells = [] ∧ t.buf1.cells = [] ∧
      t.coef.cells = [] ∧ t.bits.cells = []) ∧
  (∀ (s : State) (r : BusReq) (rest : List Event), s.rst = true → s.events = .bus r :: rest →
    step s = .next { s with events := rest, reply := .none }) ∧
  (∀ (s : State) (rest : List Event), s.events = .rst false :: rest →
    step s = .next { s with events := rest, reply := .none, rst := false })

/-- R64 (with the table of R23): what every register reads after reset, the interrupt line low, no command held, nothing written to memory:
an empty list of cells is the model's form of a memory whose every word is unspecified (log 3). -/
def Obligations.ResetRegisterTable : Prop :=
  State.reset.readReg .id = 0x50534631#32 ∧ State.reset.readReg .smoothA = 0x00CCCCCD#32 ∧
  State.reset.readReg .kmIter = 0x0000000A#32 ∧ State.reset.readReg .kmEps = 0x00000011#32 ∧
  (∀ g : Reg, g ∉ [Reg.id, .smoothA, .kmIter, .kmEps] → State.reset.readReg g = 0#32) ∧
  State.reset.opLatch = none ∧ State.reset.irq = false ∧ State.reset.buf0.cells = [] ∧ State.reset.buf1.cells = [] ∧
  State.reset.coef.cells = [] ∧ State.reset.bits.cells = []

/-! ### The bus (20_memory.md section 2) -/

/-- From R73: a transaction of another size than a word, misaligned, or to an unmapped address is answered with an error and
changes no state at all, whether BUSY is 0 or 1; no other is answered so. That the
answer's data is counted, free := free + 1, is the model's choice (log 4). -/
def Obligations.BusErrorsChangeNothing : Prop :=
  ∀ (s : State) (r : BusReq) (rest : List Event), s.rst = false → s.events = .bus r :: rest →
    (r.size ≠ 2#2 ∨ r.addr.toNat % 4 ≠ 0 ∨ Unmapped r.addr.toNat →
      ∃ v, step s = .next { s with events := rest, reply := .busError v, free := s.free + 1 }) ∧
    (¬(r.size ≠ 2#2 ∨ r.addr.toNat % 4 ≠ 0 ∨ Unmapped r.addr.toNat) →
      ∀ t v, step s = .next t → t.reply ≠ .busError v)

/-- From R23 to R60 and R74: in every state each of the thirty registers reads as the fields the commands compute with, each
field at its bits, reserved bits 0; and an idle read returns the register or the word of the window, at every index, and
changes no state. -/
def Obligations.IdleReadsReturnTheState : Prop :=
  (∀ s : State, RegistersReadTheirFields s) ∧
  ∀ (s : State) (rest : List Event), s.rst = false → s.status.busy = false →
    (∀ g, s.events = rd g :: rest → step s = .next { s with events := rest, reply := .read (s.readReg g) }) ∧
    (∀ i, i < 4096 → s.events = rdX i :: rest → step s = .next { s with events := rest, reply := .read (s.xWord i) }) ∧
    (∀ i, i < 4096 → s.events = rdY i :: rest → step s = .next { s with events := rest, reply := .read (s.yWord i) }) ∧
    (∀ k, k < 385 → s.events = rdC k :: rest → step s = .next { s with events := rest, reply := .read (s.cWord k) })

/-- R72: the word at 0x2000 + 4j has B[32j + b] in bit b; a host write to the window while idle is ignored. -/
def Obligations.BitWindowPacksThirtyTwoBits : Prop :=
  ∀ (s : State) (rest : List Event) (j : Nat), j < 128 → s.rst = false → s.status.busy = false →
    (s.events = rdBW j :: rest →
      ∃ w, step s = .next { s with events := rest, reply := .read w } ∧ ∀ b, b < 32 → w.getLsbD b = s.bBit (32 * j + b)) ∧
    (∀ v, s.events = memWrite (0x2000 + 4 * j) v :: rest →
      step s = .next { s with events := rest, reply := .written })

/-- From R75: an idle write to a window stores its word and leaves every other byte, register and flag. -/
def Obligations.IdleWritesReachOneWord : Prop :=
  ∀ (s : State) (v : Word) (rest : List Event), s.rst = false → s.status.busy = false →
    (∀ i, i < 4096 → s.events = wrX i v :: rest →
      ∃ t, step s = .next t ∧ t.xWord i = v ∧ (∀ a, a < 4 * i ∨ 4 * i + 4 ≤ a → t.source.byte a = s.source.byte a) ∧
        SameBytes s.dest t.dest ∧ SameBytes s.coef t.coef ∧ SameBytes s.bits t.bits ∧ t.regs = s.regs ∧
        t.status = s.status ∧ t.opLatch = s.opLatch) ∧
    (∀ i, i < 4096 → s.events = wrY i v :: rest →
      ∃ t, step s = .next t ∧ t.yWord i = v ∧ (∀ a, a < 4 * i ∨ 4 * i + 4 ≤ a → t.dest.byte a = s.dest.byte a) ∧
        SameBytes s.source t.source ∧ SameBytes s.coef t.coef ∧ SameBytes s.bits t.bits ∧ t.regs = s.regs ∧
        t.status = s.status ∧ t.opLatch = s.opLatch) ∧
    (∀ k, k < 385 → s.events = wrC k v :: rest →
      ∃ t, step s = .next t ∧ t.cWord k = v ∧ (∀ a, a < 4 * k ∨ 4 * k + 4 ≤ a → t.coef.byte a = s.coef.byte a) ∧
        SameBytes s.source t.source ∧ SameBytes s.dest t.dest ∧ SameBytes s.bits t.bits ∧ t.regs = s.regs ∧
        t.status = s.status ∧ t.opLatch = s.opLatch)

/-- From R23, R75: an idle write to an RW register reads back with its reserved bits 0, one to an RO register changes
nothing, no other register changes. -/
def Obligations.RegisterWritesKeepReservedBits : Prop :=
  ∀ (s : State) (g : Reg) (v : Word) (rest : List Event), s.rst = false → s.status.busy = false → g ≠ .cmd →
    g ≠ .status → s.events = wr g v :: rest →
    ∃ t, step s = .next t ∧ (∀ m, writeMask g = some m → t.readReg g = v &&& m) ∧ (writeMask g = none → t.regs = s.regs) ∧
      (∀ g', g' ≠ g → t.readReg g' = s.readReg g') ∧ t.status = s.status ∧ t.buf0 = s.buf0 ∧ t.buf1 = s.buf1 ∧
      t.coef = s.coef ∧ t.bits = s.bits ∧ t.opLatch = s.opLatch

/-! ### STATUS and the interrupt line (10_state.md section 3, 60_exceptions.md section 4) -/

/-- R26: the layout of STATUS, the write-1-to-clear rule while idle, a write while BUSY dropped, a read valid and without
effect also while BUSY. -/
def Obligations.StatusWriteOneToClear : Prop :=
  (∀ f : Status,
    f.toWord.getLsbD 0 = f.busy ∧ f.toWord.getLsbD 1 = f.done ∧ f.toWord.getLsbD 2 = f.err ∧ f.toWord.getLsbD 3 = f.sat ∧
    f.toWord.getLsbD 4 = f.ebusy ∧ f.toWord.getLsbD 5 = f.short ∧ f.toWord.getLsbD 6 = f.bank ∧
    f.toWord.getLsbD 7 = false ∧ f.toWord.extractLsb' 8 4 = f.errcode ∧ (∀ n, 12 ≤ n → f.toWord.getLsbD n = false)) ∧
  (∀ (s : State) (v : Word) (rest : List Event), s.rst = false → s.events = wr .status v :: rest →
    (s.status.busy = false → step s = .next { s with
      events := rest, reply := .written,
      status := { s.status with
        done := s.status.done && !v.getLsbD 1, err := s.status.err && !v.getLsbD 2, sat := s.status.sat && !v.getLsbD 3,
        ebusy := s.status.ebusy && !v.getLsbD 4, errcode := if v.getLsbD 2 then 0#4 else s.status.errcode } }) ∧
    (s.status.busy = true →
      step s = .next { s with events := rest, reply := .written, status := { s.status with ebusy := true } })) ∧
  (∀ (s : State) (rest : List Event), s.rst = false → s.events = rd .status :: rest →
    step s = .next { s with events := rest, reply := .read s.status.toWord })

/-- R190: irq is (DONE and DONE_IE) or (ERR and ERR_IE): the words STATUS and IEN have a 1 in common. It is low after reset,
and low once a command is accepted. -/
def Obligations.InterruptLineFollowsTheFlags : Prop :=
  (∀ s : State, s.irq = ((s.status.done && s.regs.ien.doneIe) || (s.status.err && s.regs.ien.errIe))) ∧
  (∀ s : State, s.irq = true ↔ s.status.toWord &&& s.regs.ien.toWord ≠ 0#32) ∧ State.reset.irq = false ∧
  (∀ (i : Instr) (s : State), s.status.busy = false → s.status.err = false → acceptanceCheck i s = none →
    ∃ t, exec i s = .next t ∧ t.irq = false) ∧
  (∀ (i : Instr) (s : State), s.status.busy = true →
    ∃ t, exec i s = .next t ∧ t.irq = (t.regs.ien.doneIe || (s.status.err && t.regs.ien.errIe)))

/-! ### Control commands (40_control.md) -/

/-- R101: NOP raises no error, is accepted when idle, dropped while ERR = 1, and its completion changes only BUSY and
DONE. -/
def Obligations.NopCompletes : Prop :=
  ChecksAre .nop Never Never Never ∧
  (∀ s : State, s.status.busy = false → s.status.err = false →
    exec .nop s = .next { s with
      status := { s.status with busy := true, done := false, short := false }, opLatch := some 0x00#8,
      events := s.events.tail, reply := .written }) ∧
  (∀ s : State, s.status.busy = false → s.status.err = true →
    exec .nop s = .next { s with events := s.events.tail, reply := .written }) ∧
  ∀ s : State, s.status.busy = true →
    exec .nop s = .next { s with
      status := { s.status with busy := false, done := true }, opLatch := none, events := s.events.tail, reply := .none }

/-- R102: XCHG toggles BANK and exchanges XLEN and YLEN, moves no buffer word, so X shows what Y showed and the reverse;
twice restores all three. -/
def Obligations.XchgSwapsSourceAndDestination : Prop :=
  ChecksAre .xchg Never Never Never ∧
  (∀ s : State, s.status.busy = false → s.status.err = false →
    ∃ t, exec .xchg s = .next t ∧ t.status.busy = true ∧ t.status.short = false ∧ t.regs = s.regs) ∧
  ∀ s : State, s.status.busy = true →
    ∃ t, exec .xchg s = .next t ∧
      t.status = { s.status with busy := false, done := true, bank := !s.status.bank } ∧
      t.regs = { s.regs with xlen := s.regs.ylen, ylen := s.regs.xlen } ∧
      (∀ i, t.xWord i = s.yWord i) ∧ (∀ i, t.yWord i = s.xWord i) ∧
      SameBytes s.buf0 t.buf0 ∧ SameBytes s.buf1 t.buf1 ∧ SameBytes s.coef t.coef ∧ SameBytes s.bits t.bits ∧
      t.opLatch = none ∧
      ∃ u, exec .xchg { t with status := { t.status with busy := true } } = .next u ∧ u.regs = s.regs ∧
        u.status.bank = s.status.bank ∧ (∀ i, u.xWord i = s.xWord i) ∧ ∀ i, u.yWord i = s.yWord i

/-! ### Transmit filters (41_txfilter.md) -/

/-- From R115: KGEN writes the 6S + 1 words of TapGen to C and CLEN <- 6S + 1, nothing else; the words are symmetric (K2,
which the model builds in, log 7), and within TAP_TOL of the ideal kernel for every TAP_TOL that bounds TapGen (K3, log 7). -/
def Obligations.KgenLoadsTheKernel : Prop :=
  ChecksAre .kgen (fun s => s.fkind = 0 ∨ s.fkind = 3 ∨ SpsOutside s ∨ s.alpha > 16777216) Never Never ∧
  ∀ s : State, Accepted .kgen s →
    ∃ t, exec .kgen s = .next t ∧ Completes s t False False ∧ KeepsAllButC s t ∧
      t.regs = { s.regs with clen := t.regs.clen } ∧ t.clen = 6 * s.sps + 1 ∧
      (∀ k, k ≤ 6 * s.sps → t.cWord k = tapGen (if s.fkind = 1 then .rc else .rrc) s.sps s.alpha k) ∧
      (∀ k, k ≤ 6 * s.sps → t.cWord k = t.cWord (6 * s.sps - k)) ∧
      (∀ tapTol : ℝ, TapGenAccurate tapTol → ∀ k, k ≤ 6 * s.sps →
        |(t.c k : ℝ) - 16777216 * idealTap (if s.fkind = 1 then .rc else .rrc) s.sps s.alpha k| ≤ tapTol)

/-- From R112 to R114: the ideal kernel has centre tap 1 before normalisation, is even, and has energy S. -/
def Obligations.IdealKernelHasEnergyS : Prop :=
  ∀ (kind : KernelKind) (S A : Nat), 1 ≤ S → S ≤ 64 → A ≤ 16777216 →
    prototypeTap kind S A (3 * S) = 1 ∧
    (∀ k, k ≤ 6 * S → idealTap kind S A k = idealTap kind S A (6 * S - k)) ∧
    ∑ k ∈ Finset.range (6 * S + 1), idealTap kind S A k ^ 2 = S

/-- From R112, R113: the singular cases of the two prototypes are the integer tests the rules give. -/
def Obligations.SingularTapsAreAnIntegerTest : Prop :=
  ∀ S A k : Nat, 1 ≤ S → A ≤ 16777216 →
    ((0 < rollOff A ∧ |tapTime S k| = 1 / (2 * rollOff A)) ↔ 2 * (A : Int) * |(k : Int) - 3 * S| = S * 2 ^ 24) ∧
    ((0 < rollOff A ∧ |tapTime S k| = 1 / (4 * rollOff A)) ↔ 4 * (A : Int) * |(k : Int) - 3 * S| = S * 2 ^ 24)

/-- R116: TXHOLD holds each level for S samples; N = 0 writes nothing and is short; never SAT. -/
def Obligations.TxholdHoldsEachLevel : Prop :=
  ChecksAre .txhold SpsOutside (fun s => XlenOver s ∨ s.xlen * s.sps > 4096) Never ∧
  ∀ s : State, Accepted .txhold s →
    ∃ t, exec .txhold s = .next t ∧ Completes s t False (s.xlen = 0) ∧ KeepsAllButY s t ∧
      t.regs = { s.regs with ylen := t.regs.ylen } ∧ t.ylen = s.xlen * s.sps ∧
      ∀ n, n < s.xlen * s.sps → t.yWord n = s.xWord (n / s.sps)

/-- R117, R118: TXSHAPE's output sample n is sample n + floor(L / 2) of the full convolution of the zero-inserted input with
the kernel, rounded and saturated; its length is N*S; SAT exactly when a sample was clipped. -/
def Obligations.TxshapeConvolvesAndTrims : Prop :=
  ChecksAre .txshape SpsOutside (fun s => XlenOver s ∨ s.xlen * s.sps > 4096) (fun s => s.clen = 0 ∨ s.clen > 385) ∧
  ∀ s : State, Accepted .txshape s →
    ∃ t, exec .txshape s = .next t ∧
      Completes s t (∃ n, n < s.xlen * s.sps ∧ clips (rnd (fullConvolution s (n + s.clen / 2 : Nat))) = true)
        (s.xlen = 0) ∧
      KeepsAllButY s t ∧ t.regs = { s.regs with ylen := t.regs.ylen } ∧ t.ylen = s.xlen * s.sps ∧
      ∀ n, n < s.xlen * s.sps → t.y n = sat (rnd (fullConvolution s (n + s.clen / 2 : Nat)))

/-- From R119, "Equivalently": TXSHAPE's output is the rounded, saturated sum over the symbols. -/
def Obligations.TxshapeSumsOverSymbols : Prop :=
  ∀ s t : State, Accepted .txshape s → exec .txshape s = .next t →
    ∀ n, n < s.xlen * s.sps → t.y n = sat (rnd (symbolSum s n))

/-- R120: TXFILT is refused when FKIND = 3; else it has the checks and the effect of TXHOLD when FKIND = 0, of TXSHAPE when
FKIND = 1 or 2. -/
def Obligations.TxfiltSelectsByKind : Prop :=
  ∀ s : State,
    (s.fkind = 3 → acceptanceCheck .txfilt s = some .badCfg) ∧
    (s.fkind = 0 → acceptanceCheck .txfilt s = acceptanceCheck .txhold s) ∧
    (s.fkind = 1 ∨ s.fkind = 2 → acceptanceCheck .txfilt s = acceptanceCheck .txshape s) ∧
    (Accepted .txfilt s → s.fkind = 0 → ∃ t, exec .txfilt s = .next t ∧ exec .txhold s = .next t) ∧
    (Accepted .txfilt s → s.fkind = 1 ∨ s.fkind = 2 → ∃ t, exec .txfilt s = .next t ∧ exec .txshape s = .next t)

/-! ### Reception filters (42_rxfilter.md) -/

/-- R131: shorter than one symbol period, each of the four reception filters returns the input unchanged, sets SHORT and no
other flag; otherwise SHORT stays as it is, 0 since acceptance. -/
def Obligations.ReceptionShortInputPassesThrough : Prop :=
  ∀ (i : Instr) (s : State), i = .rxfilt ∨ i = .rxmatch ∨ i = .rxsmooth ∨ i = .rxmavg → Accepted i s →
    (s.xlen < s.sps →
      ∃ t, exec i s = .next t ∧ Completes s t False True ∧ KeepsAllButY s t ∧
        t.regs = { s.regs with ylen := t.regs.ylen } ∧ t.ylen = s.xlen ∧ ∀ j, j < s.xlen → t.yWord j = s.xWord j) ∧
    (s.sps ≤ s.xlen → ∃ t, exec i s = .next t ∧ t.status.short = s.status.short)

/-- From R132, R133: RXMATCH convolves X with C read backwards, discards the first floor(L / 2) samples, rounds and saturates. -/
def Obligations.RxmatchConvolvesTheReversedKernel : Prop :=
  ChecksAre .rxmatch SpsOutside XlenOver (fun s => s.clen = 0 ∨ s.clen > 385) ∧
  ∀ s : State, Accepted .rxmatch s → s.sps ≤ s.xlen →
    ∃ t, exec .rxmatch s = .next t ∧
      Completes s t (∃ n, n < s.xlen ∧ clips (rnd (matchedSum s n)) = true) False ∧
      KeepsAllButY s t ∧ t.regs = { s.regs with ylen := t.regs.ylen } ∧ t.ylen = s.xlen ∧
      ∀ n, n < s.xlen → t.y n = sat (rnd (matchedSum s n))

/-- R134 (and from R135): RXSMOOTH starts settled on X[0], follows the recurrence on its rounded outputs, stays between any bounds of
the input, never sets SAT; A = ONE copies X, A = 0 fills Y with X[0]. -/
def Obligations.RxsmoothFollowsTheRecurrence : Prop :=
  ChecksAre .rxsmooth (fun s => SpsOutside s ∨ s.smoothA > 16777216) XlenOver Never ∧
  ∀ s : State, Accepted .rxsmooth s → s.sps ≤ s.xlen →
    ∃ t, exec .rxsmooth s = .next t ∧ Completes s t False False ∧ KeepsAllButY s t ∧
      t.regs = { s.regs with ylen := t.regs.ylen } ∧ t.ylen = s.xlen ∧ t.y 0 = s.x 0 ∧
      (∀ i, i + 1 < s.xlen → t.y (i + 1) = rnd (s.smoothA * s.x (i + 1) + (16777216 - s.smoothA) * t.y i)) ∧
      (∀ lo hi, (∀ i, i < s.xlen → lo ≤ s.x i ∧ s.x i ≤ hi) → ∀ i, i < s.xlen → lo ≤ t.y i ∧ t.y i ≤ hi) ∧
      (s.smoothA = 16777216 → ∀ i, i < s.xlen → t.y i = s.x i) ∧ (s.smoothA = 0 → ∀ i, i < s.xlen → t.y i = s.x 0)

/-- R136 (and from R137): RXMAVG averages the window i - H to i + H, H = floor(S / 4), clipped to the input, truncating toward zero;
never SAT. -/
def Obligations.RxmavgAveragesTheWindow : Prop :=
  ChecksAre .rxmavg SpsOutside XlenOver Never ∧
  ∀ s : State, Accepted .rxmavg s → s.sps ≤ s.xlen →
    ∃ t, exec .rxmavg s = .next t ∧ Completes s t False False ∧ KeepsAllButY s t ∧
      t.regs = { s.regs with ylen := t.regs.ylen } ∧ t.ylen = s.xlen ∧
      ∀ i, i < s.xlen →
        let window := (Finset.range s.xlen).filter fun j : Nat => |(j : Int) - (i : Int)| ≤ ((s.sps / 4 : Nat) : Int)
        t.y i = tdiv (∑ j ∈ window, s.x j) window.card

/-- R138: RXFILT is refused when FKIND = 3, whatever ENC is; else it has the checks and the effect of RXSMOOTH under a
ternary encoding, of RXMAVG when FKIND = 0, of RXMATCH when FKIND = 1 or 2. -/
def Obligations.RxfiltSelectsByEncodingThenKind : Prop :=
  ∀ s : State,
    let ternary := s.enc = 2 ∨ s.enc = 3
    (s.fkind = 3 → acceptanceCheck .rxfilt s = some .badCfg) ∧
    (s.fkind ≠ 3 → ternary → acceptanceCheck .rxfilt s = acceptanceCheck .rxsmooth s) ∧
    (¬ternary → s.fkind = 0 → acceptanceCheck .rxfilt s = acceptanceCheck .rxmavg s) ∧
    (¬ternary → s.fkind = 1 ∨ s.fkind = 2 → acceptanceCheck .rxfilt s = acceptanceCheck .rxmatch s) ∧
    (Accepted .rxfilt s → ternary → ∃ t, exec .rxfilt s = .next t ∧ exec .rxsmooth s = .next t) ∧
    (Accepted .rxfilt s → ¬ternary → s.fkind = 0 → ∃ t, exec .rxfilt s = .next t ∧ exec .rxmavg s = .next t) ∧
    (Accepted .rxfilt s → ¬ternary → s.fkind = 1 ∨ s.fkind = 2 →
      ∃ t, exec .rxfilt s = .next t ∧ exec .rxmatch s = .next t)

/-! ### Clock recovery and metrics (43_clock_recovery.md, 44_eye_metrics.md) -/

/-- R142 (with R141): EYESRCH selects the lowest of the candidate offsets with the largest opening and reports its opening, levels,
seen signs and number of valid centres; with no candidate the default floor(S / 2) and zeros. -/
def Obligations.EyesrchPicksTheWidestEye : Prop :=
  ChecksAre .eyesrch SpsOutside XlenOver Never ∧
  ∀ s : State, Accepted .eyesrch s →
    ∃ t, exec .eyesrch s = .next t ∧ Completes s t False (s.xlen < s.sps) ∧ KeepsMemories s t ∧
      t.regs = { s.regs with
        bestOff := t.regs.bestOff, eyeOpen := t.regs.eyeOpen, eyeMinHigh := t.regs.eyeMinHigh,
        eyeMaxLow := t.regs.eyeMaxLow, eyeStat := t.regs.eyeStat } ∧
      ((∃ hi lo, EyeCandidate s t.bestOff hi lo ∧ (t.regs.eyeOpen.toNat : Int) = hi - lo ∧
          t.regs.eyeMinHigh.toInt = hi ∧ t.regs.eyeMaxLow.toInt = lo ∧ t.regs.eyeStat.found = true ∧
          (t.regs.eyeStat.hiSeen = true ↔ ∃ c, ValidPositive s t.bestOff c) ∧
          (t.regs.eyeStat.loSeen = true ↔ ∃ c, ValidNegative s t.bestOff c) ∧
          t.regs.eyeStat.vcnt.toNat = Set.ncard { c | ValidPositive s t.bestOff c ∨ ValidNegative s t.bestOff c } ∧
          ∀ o hi' lo', EyeCandidate s o hi' lo' → hi' - lo' ≤ hi - lo ∧ (hi' - lo' = hi - lo → t.bestOff ≤ o)) ∨
        ((∀ o c, o < s.sps → ¬ValidPositive s o c ∧ ¬ValidNegative s o c) ∧ t.bestOff = s.sps / 2 ∧
          t.regs.eyeOpen = 0#32 ∧ t.regs.eyeMinHigh = 0#32 ∧ t.regs.eyeMaxLow = 0#32 ∧
          t.regs.eyeStat = { found := false, hiSeen := false, loSeen := false, vcnt := 0#13 }))

/-- R143, R144: DECIM takes X[i*S + BESTOFF] for every whole symbol period, or passes a short input through with SHORT. -/
def Obligations.DecimTakesOneSamplePerSymbol : Prop :=
  ChecksAre .decim (fun s => SpsOutside s ∨ s.bestOff ≥ s.sps) XlenOver Never ∧
  ∀ s : State, Accepted .decim s →
    ∃ t, exec .decim s = .next t ∧ Completes s t False (s.xlen < s.sps) ∧ KeepsAllButY s t ∧
      t.regs = { s.regs with ylen := t.regs.ylen } ∧
      (s.xlen < s.sps → t.ylen = s.xlen ∧ ∀ i, i < s.xlen → t.yWord i = s.xWord i) ∧
      (s.sps ≤ s.xlen → t.ylen = s.xlen / s.sps ∧
        ∀ i, i < s.xlen / s.sps → t.yWord i = s.xWord (i * s.sps + s.bestOff))

/-- R145: RECOVER does what EYESRCH does to the registers, then downsamples at the offset just found. -/
def Obligations.RecoverSearchesThenDownsamples : Prop :=
  ChecksAre .recover SpsOutside XlenOver Never ∧
  ∀ s : State, Accepted .recover s →
    ∃ t u, exec .recover s = .next t ∧ exec .eyesrch s = .next u ∧ Accepted .eyesrch s ∧
      Completes s t False (s.xlen < s.sps) ∧ KeepsAllButY s t ∧ t.regs = { u.regs with ylen := t.regs.ylen } ∧
      (s.xlen < s.sps → t.ylen = s.xlen ∧ ∀ i, i < s.xlen → t.yWord i = s.xWord i) ∧
      (s.sps ≤ s.xlen → t.ylen = s.xlen / s.sps ∧
        ∀ i, i < s.xlen / s.sps → t.yWord i = s.xWord (i * s.sps + u.bestOff))

/-- R151: EYEMET reports the lowest offset of the largest opening, its levels, and the largest and least opening over all
offsets; nothing else changes. -/
def Obligations.EyemetReportsAllOffsets : Prop :=
  ChecksAre .eyemet SpsOutside XlenOver Never ∧
  ∀ s : State, Accepted .eyemet s →
    ∃ t hi lo, exec .eyemet s = .next t ∧ Completes s t False (s.xlen < s.sps) ∧ KeepsMemories s t ∧
      t.regs = { s.regs with
        emBestOff := t.regs.emBestOff, emMaxOpen := t.regs.emMaxOpen, emMinOpen := t.regs.emMinOpen,
        emMinHigh := t.regs.emMinHigh, emMaxLow := t.regs.emMaxLow } ∧
      t.regs.emBestOff.toNat < s.sps ∧ MetricLevels s t.regs.emBestOff.toNat hi lo ∧
      (t.regs.emMaxOpen.toNat : Int) = hi - lo ∧ t.regs.emMinHigh.toInt = hi ∧ t.regs.emMaxLow.toInt = lo ∧
      (∀ o hi' lo', o < s.sps → MetricLevels s o hi' lo' →
        hi' - lo' ≤ hi - lo ∧ (o < t.regs.emBestOff.toNat → hi' - lo' < hi - lo) ∧
          (t.regs.emMinOpen.toNat : Int) ≤ hi' - lo') ∧
      ∃ o hi' lo', o < s.sps ∧ MetricLevels s o hi' lo' ∧ (t.regs.emMinOpen.toNat : Int) = hi' - lo'

/-! ### Decoder (45_decoder.md) -/

/-- R162, R163: THRESH runs 2-means from the quarter positions, one iteration at a time, until both centres move by less than
KM_EPS or KM_ITER is used up, and writes the sorted centres, their midpoint and how the run ended; an empty input gives
zeros. -/
def Obligations.ThreshRunsTwoMeans : Prop :=
  ChecksAre .thresh Never XlenOver Never ∧
  ∀ s : State, Accepted .thresh s →
    ∃ t, exec .thresh s = .next t ∧ Completes s t (AbsSaturation s) (s.xlen = 0) ∧ KeepsMemories s t ∧
      t.regs = { s.regs with
        thresh := t.regs.thresh, centLo := t.regs.centLo, centHi := t.regs.centHi, kmStat := t.regs.kmStat } ∧
      (s.xlen = 0 → t.regs.thresh = 0#32 ∧ t.regs.centLo = 0#32 ∧ t.regs.centHi = 0#32 ∧
        t.regs.kmStat = { iters := 0#8, conv := false }) ∧
      ∀ mn mx : Int, IsLeast { v | ∃ i, i < s.xlen ∧ decisionValue s i = v } mn →
        IsGreatest { v | ∃ i, i < s.xlen ∧ decisionValue s i = v } mx →
        ∃ c : Nat → Int × Int,
          c 0 = (mn + (mx - mn) / 4, mn + 3 * (mx - mn) / 4) ∧
          (∀ n, c (n + 1) = nextCentres (decisionValue s) s.xlen (c n)) ∧
          (let k := t.regs.kmStat.iters.toNat
           k ≤ s.kmIter ∧ (∀ j, j + 1 < k → ¬Settled s.kmEps (c j) (c (j + 1))) ∧
           (t.regs.kmStat.conv = true ↔ 1 ≤ k ∧ Settled s.kmEps (c (k - 1)) (c k)) ∧
           (t.regs.kmStat.conv = false → k = s.kmIter) ∧
           t.regs.centLo.toInt = min (c k).1 (c k).2 ∧ t.regs.centHi.toInt = max (c k).1 (c k).2 ∧
           t.thresh = (min (c k).1 (c k).2 + max (c k).1 (c k).2) / 2)

/-- From R162: the threshold and the centres stay within any bounds of the data, in order, for THRESH and DECODE. -/
def Obligations.ThresholdStaysWithinTheData : Prop :=
  ∀ (i : Instr) (s : State), i = .thresh ∨ i = .decodeBits → Accepted i s → 0 < s.xlen →
    ∃ t, exec i s = .next t ∧ t.regs.kmStat.iters.toNat ≤ s.kmIter ∧
      ∀ lo hi, (∀ j, j < s.xlen → lo ≤ decisionValue s j ∧ decisionValue s j ≤ hi) →
        lo ≤ t.regs.centLo.toInt ∧ t.regs.centLo.toInt ≤ t.thresh ∧ t.thresh ≤ t.regs.centHi.toInt ∧
          t.regs.centHi.toInt ≤ hi

/-- R165 (with the decision of R164): DECIDE for NRZ and the ternary encodings: one bit per symbol, 1 exactly when strictly above THRESH. -/
def Obligations.DecideThresholdsEachSymbol : Prop :=
  ChecksAre .decideBits Never XlenOver Never ∧
  ∀ s : State, Accepted .decideBits s → s.enc ≠ 1 →
    ∃ t, exec .decideBits s = .next t ∧ Completes s t (AbsSaturation s) (s.xlen = 0) ∧ KeepsAllButB s t ∧
      t.regs = { s.regs with blen := t.regs.blen } ∧ t.blen = s.xlen ∧
      ∀ i, i < s.xlen → (t.bBit i = true ↔ decisionValue s i > s.thresh)

/-- R167: DECIDE for MANCHESTER: two symbols per bit, an odd sequence padded with one false, an ambiguous pair inherits the
previous decoded bit, the first false. -/
def Obligations.DecideManchesterPairs : Prop :=
  ∀ s : State, Accepted .decideBits s → s.enc = 1 →
    ∃ t, exec .decideBits s = .next t ∧ Completes s t False (s.xlen = 0) ∧ KeepsAllButB s t ∧
      t.regs = { s.regs with blen := t.regs.blen } ∧ t.blen = (s.xlen + 1) / 2 ∧
      ∀ j, j < (s.xlen + 1) / 2 →
        let a := s.x (2 * j) > s.thresh
        let b := 2 * j + 1 < s.xlen ∧ s.x (2 * j + 1) > s.thresh
        (a ∧ ¬b → t.bBit j = true) ∧ (¬a ∧ b → t.bBit j = false) ∧
          ((a ↔ b) → t.bBit j = if j = 0 then false else t.bBit (j - 1))

/-- R169: DECODE leaves what THRESH leaves in the threshold registers and what DECIDE leaves with that threshold. -/
def Obligations.DecodeIsThreshThenDecide : Prop :=
  ChecksAre .decodeBits Never XlenOver Never ∧
  ∀ s : State, Accepted .decodeBits s →
    ∃ t u w, exec .decodeBits s = .next t ∧ exec .thresh s = .next u ∧
      exec .decideBits { s with regs := u.regs } = .next w ∧ Accepted .thresh s ∧
      Accepted .decideBits { s with regs := u.regs } ∧ Completes s t (AbsSaturation s) (s.xlen = 0) ∧ KeepsAllButB s t ∧
      t.regs = w.regs ∧ ∀ i, i < t.blen → t.bBit i = w.bBit i

/-- R170: BRESIZE keeps the bits below both lengths, pads with 0 up to TLEN, sets BLEN to TLEN; nothing else changes. -/
def Obligations.BresizeTruncatesOrPads : Prop :=
  ChecksAre .bresize Never (fun s => s.tlen > 4096) Never ∧
  ∀ s : State, Accepted .bresize s →
    ∃ t, exec .bresize s = .next t ∧ Completes s t False False ∧ KeepsAllButB s t ∧
      t.regs = { s.regs with blen := s.regs.tlen } ∧
      (∀ i, i < min s.blen s.tlen → t.bBit i = s.bBit i) ∧ ∀ i, s.blen ≤ i → i < s.tlen → t.bBit i = false

/-- From R38, R166: in every command the encoding value 3 behaves exactly as the value 2. -/
def Obligations.Hdb3BehavesAsAmi : Prop :=
  ∀ (i : Instr) (s : State), s.regs.cfg.enc = 3#2 →
    ∃ t u, exec i s = .next t ∧
      exec i { s with regs := { s.regs with cfg := { s.regs.cfg with enc := 2#2 } } } = .next u ∧
      u = { t with regs := { t.regs with cfg := { t.regs.cfg with enc := 2#2 } } }

/-! ### Whole-machine rules -/

/-- From R55 to R57: no completion writes X's buffer; only KGEN writes C, only DECIDE, DECODE and BRESIZE write B, and the
commands without an output buffer leave both sample buffers. -/
def Obligations.CommandsWriteOnlyTheirMemory : Prop :=
  ∀ (i : Instr) (s t : State), s.status.busy = true → exec i s = .next t →
    (if s.status.bank then t.buf1 = s.buf1 else t.buf0 = s.buf0) ∧
    (i ≠ .kgen → t.coef = s.coef) ∧
    (i ∉ [Instr.decideBits, .decodeBits, .bresize] → t.bits = s.bits) ∧
    (i ∈ [Instr.nop, .xchg, .kgen, .eyesrch, .eyemet, .thresh, .decideBits, .decodeBits, .bresize] →
      t.buf0 = s.buf0 ∧ t.buf1 = s.buf1)

/-- From R78: no command reads X at an index >= XLEN or C at an index >= CLEN: whatever stands there, the outcome is the
same. -/
def Obligations.CommandsReadOnlyValidWords : Prop :=
  ∀ (i : Instr) (s : State) (m c : Memory), s.status.busy = true →
    (∀ j, j < s.xlen → m.word (4 * j) = s.source.word (4 * j)) →
    (∀ k, k < s.clen → c.word (4 * k) = s.coef.word (4 * k)) →
    ∃ t u, exec i s = .next t ∧ exec i (({ s with coef := c }).setSource m) = .next u ∧
      u.regs = t.regs ∧ u.status = t.status ∧ u.bits = t.bits ∧ (i ≠ .xchg → u.dest = t.dest) ∧
      (i = .kgen → u.coef = t.coef)

/-- From R33 (R26 to R32, R34, R51, R54): which events set and clear each flag, over every step. -/
def Obligations.EveryFlagFollowsItsTable : Prop :=
  ∀ s t : State, step s = .next t →
    -- BUSY: acceptance; completion, reset
    ((Accepting s → t.status.busy = true) ∧ (Completing s ∨ Resetting s → t.status.busy = false) ∧
      (t.status.busy ≠ s.status.busy → Accepting s ∨ Completing s ∨ Resetting s)) ∧
    -- DONE: completion; acceptance, W1C, reset
    ((Completing s → t.status.done = true) ∧ (Accepting s ∨ Clearing 1 s ∨ Resetting s → t.status.done = false) ∧
      (t.status.done ≠ s.status.done → Completing s ∨ Accepting s ∨ Clearing 1 s ∨ Resetting s)) ∧
    -- ERR, ERRCODE: error entry; W1C, reset
    ((Refusing s → t.status.err = true) ∧ (Clearing 2 s ∨ Resetting s → t.status.err = false ∧ t.status.errcode = 0#4) ∧
      (t.status.err ≠ s.status.err ∨ t.status.errcode ≠ s.status.errcode → Refusing s ∨ Clearing 2 s ∨ Resetting s)) ∧
    -- SAT: completion; W1C, reset
    ((Completing s → s.status.sat = true → t.status.sat = true) ∧ (Clearing 3 s ∨ Resetting s → t.status.sat = false) ∧
      (s.status.sat = false → t.status.sat = true → Completing s) ∧
      (s.status.sat = true → t.status.sat = false → Clearing 3 s ∨ Resetting s)) ∧
    -- EBUSY: host write while BUSY = 1; W1C, reset
    ((WritingWhileBusy s → t.status.ebusy = true) ∧ (Clearing 4 s ∨ Resetting s → t.status.ebusy = false) ∧
      (t.status.ebusy ≠ s.status.ebusy → WritingWhileBusy s ∨ Clearing 4 s ∨ Resetting s)) ∧
    -- SHORT: completion; acceptance, reset
    ((Accepting s ∨ Resetting s → t.status.short = false) ∧
      (s.status.short = false → t.status.short = true → Completing s) ∧
      (s.status.short = true → t.status.short = false → Accepting s ∨ Resetting s)) ∧
    -- BANK: completion of XCHG; reset
    ((CompletingOneOf [.xchg] s → t.status.bank = !s.status.bank) ∧ (Resetting s → t.status.bank = false) ∧
      (t.status.bank ≠ s.status.bank → CompletingOneOf [.xchg] s ∨ Resetting s)) ∧
    -- KM_STAT.CONV and EYE_STAT: completions of their commands; reset
    (t.regs.kmStat ≠ s.regs.kmStat → CompletingOneOf [.thresh, .decodeBits] s ∨ Resetting s) ∧
    (t.regs.eyeStat ≠ s.regs.eyeStat → CompletingOneOf [.eyesrch, .recover] s ∨ Resetting s)

/-! ### Invariants -/

/-- The reset state is sound, its eye, metrics and centre registers agree, and it is at rest. That it is at rest with nothing
left to take, events = [], is the model's choice (log 1, log 11); the canonical form of its memories is the model's too
(log 3). -/
def Obligations.SoundAtReset : Prop :=
  State.reset.Sound ∧ State.reset.EyeCoherent ∧ State.reset.MetricsCoherent ∧ State.reset.CentresSorted ∧
    State.reset.atRest

/-- From R21, R29, R44: every step from a sound state leaves a sound state: ERRCODE = 0 exactly when ERR = 0 and at most 4 (R29),
OPLATCH holds a command whose checks passed exactly while BUSY = 1 (R21), the memories within their sizes, BLEN <= 4096 (R44).
That the memories have one canonical form, rising addresses, is the model's choice (log 3), and so is that OPLATCH is empty
while BUSY = 0 (log 6). -/
def Obligations.EveryStepKeepsSound : Prop := ∀ s t : State, s.Sound → step s = .next t → t.Sound

/-- No sound state stops: every step of one answers a next state. (From R19: no fault or hang; R212: the completion is
always taken.) -/
def Obligations.SoundStatesNeverStop : Prop := ∀ s : State, s.Sound → ∃ t, step s = .next t

/-- From R53, R54: every step from a sound state keeps EYE_OPEN = EYE_MINHIGH - EYE_MAXLOW, EYE_MINHIGH >= 0, EYE_MAXLOW <= 0,
VCNT <= 4094, and all of them 0 when FOUND = 0. -/
def Obligations.EveryStepKeepsEyeCoherent : Prop :=
  ∀ s t : State, s.Sound → s.EyeCoherent → step s = .next t → t.EyeCoherent

/-- From R50, R59: every step keeps CENT_LO <= CENT_HI, EM_MAXOPEN = EM_MINHIGH - EM_MAXLOW with EM_MINHIGH >= 0 and EM_MAXLOW <=
0, and EM_MINOPEN <= EM_MAXOPEN. -/
def Obligations.EveryStepKeepsResultsCoherent : Prop :=
  ∀ s t : State, s.MetricsCoherent → s.CentresSorted → step s = .next t → t.MetricsCoherent ∧ t.CentresSorted
end

