-- ==== Sys2Proof/Laws/Arith.lean ====
section
/-! SUPPORT. The arithmetic primitives: what they return and in what range. -/

namespace Sys2Proof.Machine

theorem rnd_one_mul (v : Int) : rnd (16777216 * v) = v := by unfold rnd; omega

/-- `rnd` of ONE times something between two integers lies between them. -/
theorem rnd_between {a lo hi : Int} (h1 : 16777216 * lo ≤ a) (h2 : a ≤ 16777216 * hi) : lo ≤ rnd a ∧ rnd a ≤ hi := by
  unfold rnd; omega

theorem sat_range (v : Int) : Config.minw ≤ sat v ∧ sat v ≤ Config.maxw := by
  unfold sat Config.maxw Config.minw; split <;> (try split) <;> omega

theorem sat_of_not_clips {v : Int} (h : clips v = false) : sat v = v := by
  simp only [clips, Bool.or_eq_false_iff, decide_eq_false_iff_not] at h
  unfold sat; rw [if_neg h.1, if_neg h.2]

theorem clips_iff (v : Int) : clips v = true ↔ v < Config.minw ∨ Config.maxw < v := by
  simp only [clips, Bool.or_eq_true, decide_eq_true_eq]; tauto

theorem sabs_range {x : Int} (h1 : Config.minw ≤ x) (h2 : x ≤ Config.maxw) : 0 ≤ sabs x ∧ sabs x ≤ Config.maxw := by
  unfold sabs; unfold Config.maxw Config.minw at *; split
  · omega
  · split <;> omega

/-- A truncated quotient by n > 0 lies where the exact one does. -/
theorem tdiv_between {s n lo hi : Int} (hn : 0 < n) (h1 : n * lo ≤ s) (h2 : s ≤ n * hi) : lo ≤ tdiv s n ∧ tdiv s n ≤ hi := by
  unfold tdiv; split
  · constructor
    · exact (Int.le_ediv_iff_mul_le hn).mpr (by rw [Int.mul_comm]; exact h1)
    · exact Int.ediv_le_of_le_mul hn (by rw [Int.mul_comm]; exact h2)
  · constructor
    · have : (-s) / n ≤ -lo := Int.ediv_le_of_le_mul hn (by rw [Int.neg_mul, Int.mul_comm]; omega)
      omega
    · have : -hi ≤ (-s) / n := (Int.le_ediv_iff_mul_le hn).mpr (by rw [Int.neg_mul, Int.mul_comm]; omega)
      omega

/-- The running sum is the sum over the indices. -/
theorem sumTo_eq_sum (n : Nat) (f : Nat → Int) : sumTo n f = ∑ k ∈ Finset.range n, f k := by
  induction n with
  | zero => simp [sumTo]
  | succ n ih => rw [sumTo, ih, Finset.sum_range_succ]

theorem toInt_range (w : Word) : Config.minw ≤ w.toInt ∧ w.toInt ≤ Config.maxw := by
  have h1 := BitVec.le_toInt w
  have h2 := BitVec.toInt_lt (x := w)
  unfold Config.minw Config.maxw
  norm_num at h1 h2
  omega

/-- A word value survives its word. -/
theorem toInt_wordOfInt {v : Int} (h1 : Config.minw ≤ v) (h2 : v ≤ Config.maxw) : (wordOfInt v).toInt = v := by
  unfold Config.minw Config.maxw at *
  unfold wordOfInt
  rw [BitVec.toInt_ofInt]
  exact Int.bmod_eq_of_le (by norm_num; omega) (by norm_num; omega)

@[simp] theorem wordOfInt_toInt (w : Word) : wordOfInt w.toInt = w := BitVec.ofInt_toInt

/-- An opening survives its unsigned word (00_scope.md R14). -/
theorem toNat_wordOfInt {v : Int} (h1 : 0 ≤ v) (h2 : v < 4294967296) : ((wordOfInt v).toNat : Int) = v := by
  unfold wordOfInt
  rw [BitVec.toNat_ofInt]
  norm_num
  omega

end Sys2Proof.Machine
end

