-- ==== Sys2Proof/Laws/Memory.lean ====
section
/-! SUPPORT. The memory operations: a read after a write, the canonical form, whole memories from words and bits. -/

namespace Sys2Proof.Machine

/-! ### One cell -/

theorem cellAt_putCell_same (l : List Host.Cell) (a : Nat) (v : Byte) : cellAt (putCell l a v) a = some v := by
  induction l with
  | nil => simp [putCell, cellAt]
  | cons p rest ih =>
    obtain ⟨b, w⟩ := p
    unfold putCell
    split
    · simp [cellAt]
    · split
      · simp [cellAt]
      · next h => simp [cellAt, ih, Ne.symm h]

theorem cellAt_putCell_other (l : List Host.Cell) {a b : Nat} (v : Byte) (h : b ≠ a) :
    cellAt (putCell l a v) b = cellAt l b := by
  induction l with
  | nil => simp [putCell, cellAt, h.symm]
  | cons p rest ih =>
    obtain ⟨c, w⟩ := p
    unfold putCell
    split
    · simp [cellAt, h.symm]
    · split
      · next hac => subst hac; simp [cellAt, h.symm]
      · simp [cellAt, ih]

theorem mem_putCell {l : List Host.Cell} {a : Nat} {v : Byte} {p : Host.Cell} (h : p ∈ putCell l a v) :
    p = (a, v) ∨ p ∈ l := by
  induction l with
  | nil => simpa [putCell] using h
  | cons q rest ih =>
    obtain ⟨b, w⟩ := q
    unfold putCell at h
    split at h
    · simpa using h
    · split at h
      · simp only [List.mem_cons] at h ⊢; tauto
      · simp only [List.mem_cons] at h ⊢
        rcases h with h | h
        · exact .inr (.inl h)
        · rcases ih h with h | h
          · exact .inl h
          · exact .inr (.inr h)

theorem putCell_rising {l : List Host.Cell} (a : Nat) (v : Byte) (h : l.Pairwise fun p q => p.1 < q.1) :
    (putCell l a v).Pairwise fun p q => p.1 < q.1 := by
  induction l with
  | nil => simp [putCell]
  | cons q rest ih =>
    obtain ⟨b, w⟩ := q
    obtain ⟨hq, hr⟩ := List.pairwise_cons.mp h
    unfold putCell
    split
    · next hab =>
      refine List.pairwise_cons.mpr ⟨fun p hp => ?_, h⟩
      rcases List.mem_cons.mp hp with rfl | hp
      · exact hab
      · exact Nat.lt_trans hab (hq p hp)
    · split
      · next hab => subst hab; exact List.pairwise_cons.mpr ⟨hq, hr⟩
      · next h1 h2 =>
        refine List.pairwise_cons.mpr ⟨fun p hp => ?_, ih hr⟩
        rcases mem_putCell hp with rfl | hp
        · exact Nat.lt_of_le_of_ne (Nat.le_of_not_lt h1) (Ne.symm h2)
        · exact hq p hp

/-! ### Bytes -/

@[simp] theorem Memory.byte_putByte_same (m : Memory) (a : Nat) (v : Byte) : (m.putByte a v).byte a = v := by
  simp [Memory.byte, Memory.putByte, cellAt_putCell_same]

theorem Memory.byte_putByte_other (m : Memory) {a b : Nat} (v : Byte) (h : b ≠ a) : (m.putByte a v).byte b = m.byte b := by
  simp [Memory.byte, Memory.putByte, cellAt_putCell_other _ _ h]

theorem Memory.putByte_wf {m : Memory} (a : Nat) (v : Byte) (h : m.wf) : (m.putByte a v).wf := putCell_rising a v h

/-! ### Words -/

/-- A word is its four bytes. -/
theorem word_of_bytes (w : Word) : wordByte w 3 ++ wordByte w 2 ++ wordByte w 1 ++ wordByte w 0 = w := by
  refine BitVec.eq_of_getLsbD_eq fun i hi => ?_
  simp only [wordByte, BitVec.getLsbD_append, BitVec.getLsbD_extractLsb']
  split
  · next h => simp [h]
  · split
    · next h1 h2 => simp [h2, show 8 * 1 + (i - 8) = i by omega]
    · split
      · next h1 h2 h3 => simp [h3, show 8 * 2 + (i - 8 - 8) = i by omega]
      · next h1 h2 h3 => simp [show i - 8 - 8 - 8 < 8 by omega, show 8 * 3 + (i - 8 - 8 - 8) = i by omega]

theorem Memory.byte_putWord_other (m : Memory) {a b : Nat} (w : Word) (h : b < a ∨ a + 4 ≤ b) :
    (m.putWord a w).byte b = m.byte b := by
  unfold Memory.putWord
  rw [Memory.byte_putByte_other _ _ (by omega), Memory.byte_putByte_other _ _ (by omega),
    Memory.byte_putByte_other _ _ (by omega), Memory.byte_putByte_other _ _ (by omega)]

theorem Memory.word_putWord_same (m : Memory) (a : Nat) (w : Word) : (m.putWord a w).word a = w := by
  have e0 : (m.putWord a w).byte a = wordByte w 0 := by
    unfold Memory.putWord
    rw [Memory.byte_putByte_other _ _ (by omega), Memory.byte_putByte_other _ _ (by omega),
      Memory.byte_putByte_other _ _ (by omega), Memory.byte_putByte_same]
  have e1 : (m.putWord a w).byte (a + 1) = wordByte w 1 := by
    unfold Memory.putWord
    rw [Memory.byte_putByte_other _ _ (by omega), Memory.byte_putByte_other _ _ (by omega), Memory.byte_putByte_same]
  have e2 : (m.putWord a w).byte (a + 2) = wordByte w 2 := by
    unfold Memory.putWord
    rw [Memory.byte_putByte_other _ _ (by omega), Memory.byte_putByte_same]
  have e3 : (m.putWord a w).byte (a + 3) = wordByte w 3 := by
    unfold Memory.putWord
    rw [Memory.byte_putByte_same]
  unfold Memory.word
  rw [e0, e1, e2, e3]
  exact word_of_bytes w

theorem Memory.word_putWord_other (m : Memory) {a b : Nat} (w : Word) (h : b + 4 ≤ a ∨ a + 4 ≤ b) :
    (m.putWord a w).word b = m.word b := by
  unfold Memory.word
  rw [Memory.byte_putWord_other _ _ (by omega), Memory.byte_putWord_other _ _ (by omega),
    Memory.byte_putWord_other _ _ (by omega), Memory.byte_putWord_other _ _ (by omega)]

theorem Memory.putWord_wf {m : Memory} (a : Nat) (w : Word) (h : m.wf) : (m.putWord a w).wf :=
  Memory.putByte_wf _ _ (Memory.putByte_wf _ _ (Memory.putByte_wf _ _ (Memory.putByte_wf _ _ h)))

theorem mem_putWord {m : Memory} {a : Nat} {w : Word} {p : Host.Cell} (h : p ∈ (m.putWord a w).cells) :
    (a ≤ p.1 ∧ p.1 < a + 4) ∨ p ∈ m.cells := by
  unfold Memory.putWord Memory.putByte at h
  rcases mem_putCell h with rfl | h
  · exact .inl ⟨by simp, by simp⟩
  rcases mem_putCell h with rfl | h
  · exact .inl ⟨by simp, by simp⟩
  rcases mem_putCell h with rfl | h
  · exact .inl ⟨by simp, by simp⟩
  rcases mem_putCell h with rfl | h
  · exact .inl ⟨by simp, by simp⟩
  exact .inr h

/-! ### Whole memories -/

theorem mem_wordCells {a : Nat} {ws : List Word} {p : Host.Cell} (h : p ∈ wordCells a ws) :
    a ≤ p.1 ∧ p.1 < a + 4 * ws.length := by
  induction ws generalizing a with
  | nil => simp [wordCells] at h
  | cons w ws ih =>
    simp only [wordCells, List.mem_cons] at h
    simp only [List.length_cons]
    rcases h with rfl | rfl | rfl | rfl | h
    · constructor <;> simp
    · simp; omega
    · simp; omega
    · simp; omega
    · have := ih h; omega

theorem wordCells_rising (a : Nat) (ws : List Word) : (wordCells a ws).Pairwise fun p q => p.1 < q.1 := by
  induction ws generalizing a with
  | nil => simp [wordCells]
  | cons w ws ih =>
    have far : ∀ p ∈ wordCells (a + 4) ws, a + 4 ≤ p.1 := fun p hp => (mem_wordCells hp).1
    simp only [wordCells, List.pairwise_cons, List.mem_cons]
    refine ⟨?_, ?_, ?_, ?_, ih _⟩
    · rintro p (rfl | rfl | rfl | hp)
      · simp
      · simp
      · simp
      · have := far p hp; simp; omega
    · rintro p (rfl | rfl | hp)
      · simp
      · simp
      · have := far p hp; simp; omega
    · rintro p (rfl | hp)
      · simp
      · have := far p hp; simp; omega
    · rintro p hp
      have := far p hp; simp; omega

theorem memOfWords_wf (ws : List Word) (e : Nat) : (memOfWords ws e).wf := wordCells_rising 0 ws

theorem mem_bitCells {i : Nat} {bs : List Bool} {p : Host.Cell} (h : p ∈ bitCells i bs) :
    i ≤ p.1 ∧ p.1 < i + bs.length := by
  induction bs generalizing i with
  | nil => simp [bitCells] at h
  | cons b bs ih =>
    simp only [bitCells, List.mem_cons] at h
    simp only [List.length_cons]
    rcases h with rfl | h
    · constructor <;> simp
    · have := ih h; omega

theorem bitCells_rising (i : Nat) (bs : List Bool) : (bitCells i bs).Pairwise fun p q => p.1 < q.1 := by
  induction bs generalizing i with
  | nil => simp [bitCells]
  | cons b bs ih =>
    simp only [bitCells, List.pairwise_cons]
    exact ⟨fun p hp => (mem_bitCells hp).1, ih _⟩

theorem memOfBits_wf (bs : List Bool) (e : Nat) : (memOfBits bs e).wf := bitCells_rising 0 bs

theorem unspecifiedMemory_wf (e : Nat) : (unspecifiedMemory e).wf := List.Pairwise.nil

theorem cellAt_wordCells (a : Nat) (ws : List Word) (i j : Nat) (hi : i < ws.length) (hj : j < 4) :
    cellAt (wordCells a ws) (a + 4 * i + j) = some (wordByte ws[i] j) := by
  induction ws generalizing a i with
  | nil => simp at hi
  | cons w ws ih =>
    cases i with
    | zero =>
      have : j = 0 ∨ j = 1 ∨ j = 2 ∨ j = 3 := by omega
      rcases this with rfl | rfl | rfl | rfl <;> simp [wordCells, cellAt]
    | succ i =>
      have h := ih (a + 4) i (by simpa using hi)
      rw [show a + 4 + 4 * i + j = a + 4 * (i + 1) + j by omega] at h
      simp only [wordCells, cellAt, List.getElem_cons_succ]
      rw [if_neg (by omega), if_neg (by omega), if_neg (by omega), if_neg (by omega)]
      exact h

/-- Word i of a memory made of words. -/
theorem memOfWords_word (ws : List Word) (e i : Nat) (hi : i < ws.length) : (memOfWords ws e).word (4 * i) = ws[i] := by
  have h (j : Nat) (hj : j < 4) : (memOfWords ws e).byte (4 * i + j) = wordByte ws[i] j := by
    have := cellAt_wordCells 0 ws i j hi hj
    rw [Nat.zero_add] at this
    simp [Memory.byte, memOfWords, this]
  unfold Memory.word
  rw [h 3 (by omega), h 2 (by omega), h 1 (by omega), ← Nat.add_zero (4 * i), h 0 (by omega)]
  exact word_of_bytes _

theorem cellAt_bitCells (k : Nat) (bs : List Bool) (i : Nat) (hi : i < bs.length) :
    cellAt (bitCells k bs) (k + i) = some (bitByte bs[i]) := by
  induction bs generalizing k i with
  | nil => simp at hi
  | cons b bs ih =>
    cases i with
    | zero => simp [bitCells, cellAt]
    | succ i =>
      have h := ih (k + 1) i (by simpa using hi)
      rw [show k + 1 + i = k + (i + 1) by omega] at h
      simp only [bitCells, cellAt, List.getElem_cons_succ]
      rw [if_neg (by omega)]
      exact h

/-- Bit i of a memory made of bits. -/
theorem memOfBits_bit (bs : List Bool) (e i : Nat) (hi : i < bs.length) : (memOfBits bs e).bit i = bs[i] := by
  have := cellAt_bitCells 0 bs i hi
  rw [Nat.zero_add] at this
  simp only [Memory.bit, Memory.byte, memOfBits, this, Option.getD_some, bitByte]
  cases bs[i] <;> rfl

end Sys2Proof.Machine
end

