-- ==== Sys2Proof/Laws/State.lean ====
section
/-! SUPPORT. What each named update of the state leaves in each field. -/

namespace Sys2Proof.Machine

/-! ### Updates of STATUS -/

@[simp] theorem Status.completed_busy (f : Status) (a : Bool) (b : Bool) : (f.completed a b).busy = false := rfl
@[simp] theorem Status.completed_done (f : Status) (a : Bool) (b : Bool) : (f.completed a b).done = true := rfl
@[simp] theorem Status.completed_err (f : Status) (a : Bool) (b : Bool) : (f.completed a b).err = f.err := rfl
@[simp] theorem Status.completed_sat (f : Status) (a : Bool) (b : Bool) : (f.completed a b).sat = (f.sat || a) := rfl
@[simp] theorem Status.completed_ebusy (f : Status) (a : Bool) (b : Bool) : (f.completed a b).ebusy = f.ebusy := rfl
@[simp] theorem Status.completed_short (f : Status) (a : Bool) (b : Bool) : (f.completed a b).short = (f.short || b) := rfl
@[simp] theorem Status.completed_bank (f : Status) (a : Bool) (b : Bool) : (f.completed a b).bank = f.bank := rfl
@[simp] theorem Status.completed_errcode (f : Status) (a : Bool) (b : Bool) : (f.completed a b).errcode = f.errcode := rfl
@[simp] theorem Status.accepted_busy (f : Status) : (f.accepted).busy = true := rfl
@[simp] theorem Status.accepted_done (f : Status) : (f.accepted).done = false := rfl
@[simp] theorem Status.accepted_err (f : Status) : (f.accepted).err = f.err := rfl
@[simp] theorem Status.accepted_sat (f : Status) : (f.accepted).sat = f.sat := rfl
@[simp] theorem Status.accepted_ebusy (f : Status) : (f.accepted).ebusy = f.ebusy := rfl
@[simp] theorem Status.accepted_short (f : Status) : (f.accepted).short = false := rfl
@[simp] theorem Status.accepted_bank (f : Status) : (f.accepted).bank = f.bank := rfl
@[simp] theorem Status.accepted_errcode (f : Status) : (f.accepted).errcode = f.errcode := rfl
@[simp] theorem Status.errored_busy (f : Status) (e : ErrCode) : (f.errored e).busy = f.busy := rfl
@[simp] theorem Status.errored_done (f : Status) (e : ErrCode) : (f.errored e).done = f.done := rfl
@[simp] theorem Status.errored_err (f : Status) (e : ErrCode) : (f.errored e).err = true := rfl
@[simp] theorem Status.errored_sat (f : Status) (e : ErrCode) : (f.errored e).sat = f.sat := rfl
@[simp] theorem Status.errored_ebusy (f : Status) (e : ErrCode) : (f.errored e).ebusy = f.ebusy := rfl
@[simp] theorem Status.errored_short (f : Status) (e : ErrCode) : (f.errored e).short = f.short := rfl
@[simp] theorem Status.errored_bank (f : Status) (e : ErrCode) : (f.errored e).bank = f.bank := rfl
@[simp] theorem Status.errored_errcode (f : Status) (e : ErrCode) : (f.errored e).errcode = errNumber e := rfl
@[simp] theorem Status.clearErr_busy (f : Status) : (f.clearErr).busy = f.busy := rfl
@[simp] theorem Status.clearErr_done (f : Status) : (f.clearErr).done = f.done := rfl
@[simp] theorem Status.clearErr_err (f : Status) : (f.clearErr).err = false := rfl
@[simp] theorem Status.clearErr_sat (f : Status) : (f.clearErr).sat = f.sat := rfl
@[simp] theorem Status.clearErr_ebusy (f : Status) : (f.clearErr).ebusy = f.ebusy := rfl
@[simp] theorem Status.clearErr_short (f : Status) : (f.clearErr).short = f.short := rfl
@[simp] theorem Status.clearErr_bank (f : Status) : (f.clearErr).bank = f.bank := rfl
@[simp] theorem Status.clearErr_errcode (f : Status) : (f.clearErr).errcode = 0#4 := rfl
@[simp] theorem Status.writeOneToClear_busy (f : Status) (v : Word) : (f.writeOneToClear v).busy = f.busy := by
  unfold Status.writeOneToClear Status.clearErr
  cases v.getLsbD 1 <;> cases v.getLsbD 2 <;> cases v.getLsbD 3 <;> cases v.getLsbD 4 <;> simp
@[simp] theorem Status.writeOneToClear_done (f : Status) (v : Word) : (f.writeOneToClear v).done = (f.done && !v.getLsbD 1) := by
  unfold Status.writeOneToClear Status.clearErr
  cases v.getLsbD 1 <;> cases v.getLsbD 2 <;> cases v.getLsbD 3 <;> cases v.getLsbD 4 <;> simp
@[simp] theorem Status.writeOneToClear_err (f : Status) (v : Word) : (f.writeOneToClear v).err = (f.err && !v.getLsbD 2) := by
  unfold Status.writeOneToClear Status.clearErr
  cases v.getLsbD 1 <;> cases v.getLsbD 2 <;> cases v.getLsbD 3 <;> cases v.getLsbD 4 <;> simp
@[simp] theorem Status.writeOneToClear_sat (f : Status) (v : Word) : (f.writeOneToClear v).sat = (f.sat && !v.getLsbD 3) := by
  unfold Status.writeOneToClear Status.clearErr
  cases v.getLsbD 1 <;> cases v.getLsbD 2 <;> cases v.getLsbD 3 <;> cases v.getLsbD 4 <;> simp
@[simp] theorem Status.writeOneToClear_ebusy (f : Status) (v : Word) : (f.writeOneToClear v).ebusy = (f.ebusy && !v.getLsbD 4) := by
  unfold Status.writeOneToClear Status.clearErr
  cases v.getLsbD 1 <;> cases v.getLsbD 2 <;> cases v.getLsbD 3 <;> cases v.getLsbD 4 <;> simp
@[simp] theorem Status.writeOneToClear_short (f : Status) (v : Word) : (f.writeOneToClear v).short = f.short := by
  unfold Status.writeOneToClear Status.clearErr
  cases v.getLsbD 1 <;> cases v.getLsbD 2 <;> cases v.getLsbD 3 <;> cases v.getLsbD 4 <;> simp
@[simp] theorem Status.writeOneToClear_bank (f : Status) (v : Word) : (f.writeOneToClear v).bank = f.bank := by
  unfold Status.writeOneToClear Status.clearErr
  cases v.getLsbD 1 <;> cases v.getLsbD 2 <;> cases v.getLsbD 3 <;> cases v.getLsbD 4 <;> simp
@[simp] theorem Status.writeOneToClear_errcode (f : Status) (v : Word) : (f.writeOneToClear v).errcode = (if v.getLsbD 2 then 0#4 else f.errcode) := by
  unfold Status.writeOneToClear Status.clearErr
  cases v.getLsbD 1 <;> cases v.getLsbD 2 <;> cases v.getLsbD 3 <;> cases v.getLsbD 4 <;> simp

/-! ### Updates of the registers -/

@[simp] theorem Regs.withEye_ien (g : Regs) (r : EyeResult) : (g.withEye r).ien = g.ien := rfl
@[simp] theorem Regs.withEye_cfg (g : Regs) (r : EyeResult) : (g.withEye r).cfg = g.cfg := rfl
@[simp] theorem Regs.withEye_sps (g : Regs) (r : EyeResult) : (g.withEye r).sps = g.sps := rfl
@[simp] theorem Regs.withEye_alpha (g : Regs) (r : EyeResult) : (g.withEye r).alpha = g.alpha := rfl
@[simp] theorem Regs.withEye_xlen (g : Regs) (r : EyeResult) : (g.withEye r).xlen = g.xlen := rfl
@[simp] theorem Regs.withEye_ylen (g : Regs) (r : EyeResult) : (g.withEye r).ylen = g.ylen := rfl
@[simp] theorem Regs.withEye_clen (g : Regs) (r : EyeResult) : (g.withEye r).clen = g.clen := rfl
@[simp] theorem Regs.withEye_blen (g : Regs) (r : EyeResult) : (g.withEye r).blen = g.blen := rfl
@[simp] theorem Regs.withEye_tlen (g : Regs) (r : EyeResult) : (g.withEye r).tlen = g.tlen := rfl
@[simp] theorem Regs.withEye_smoothA (g : Regs) (r : EyeResult) : (g.withEye r).smoothA = g.smoothA := rfl
@[simp] theorem Regs.withEye_kmIter (g : Regs) (r : EyeResult) : (g.withEye r).kmIter = g.kmIter := rfl
@[simp] theorem Regs.withEye_kmEps (g : Regs) (r : EyeResult) : (g.withEye r).kmEps = g.kmEps := rfl
@[simp] theorem Regs.withEye_thresh (g : Regs) (r : EyeResult) : (g.withEye r).thresh = g.thresh := rfl
@[simp] theorem Regs.withEye_centLo (g : Regs) (r : EyeResult) : (g.withEye r).centLo = g.centLo := rfl
@[simp] theorem Regs.withEye_centHi (g : Regs) (r : EyeResult) : (g.withEye r).centHi = g.centHi := rfl
@[simp] theorem Regs.withEye_kmStat (g : Regs) (r : EyeResult) : (g.withEye r).kmStat = g.kmStat := rfl
@[simp] theorem Regs.withEye_bestOff (g : Regs) (r : EyeResult) : (g.withEye r).bestOff = BitVec.ofNat 7 r.best := rfl
@[simp] theorem Regs.withEye_eyeOpen (g : Regs) (r : EyeResult) : (g.withEye r).eyeOpen = wordOfInt r.opening := rfl
@[simp] theorem Regs.withEye_eyeMinHigh (g : Regs) (r : EyeResult) : (g.withEye r).eyeMinHigh = wordOfInt r.minHigh := rfl
@[simp] theorem Regs.withEye_eyeMaxLow (g : Regs) (r : EyeResult) : (g.withEye r).eyeMaxLow = wordOfInt r.maxLow := rfl
@[simp] theorem Regs.withEye_eyeStat (g : Regs) (r : EyeResult) : (g.withEye r).eyeStat = { found := r.found, hiSeen := r.hiSeen, loSeen := r.loSeen, vcnt := BitVec.ofNat 13 r.count } := rfl
@[simp] theorem Regs.withEye_emBestOff (g : Regs) (r : EyeResult) : (g.withEye r).emBestOff = g.emBestOff := rfl
@[simp] theorem Regs.withEye_emMaxOpen (g : Regs) (r : EyeResult) : (g.withEye r).emMaxOpen = g.emMaxOpen := rfl
@[simp] theorem Regs.withEye_emMinOpen (g : Regs) (r : EyeResult) : (g.withEye r).emMinOpen = g.emMinOpen := rfl
@[simp] theorem Regs.withEye_emMinHigh (g : Regs) (r : EyeResult) : (g.withEye r).emMinHigh = g.emMinHigh := rfl
@[simp] theorem Regs.withEye_emMaxLow (g : Regs) (r : EyeResult) : (g.withEye r).emMaxLow = g.emMaxLow := rfl
@[simp] theorem Regs.withEye_errInfo (g : Regs) (r : EyeResult) : (g.withEye r).errInfo = g.errInfo := rfl
@[simp] theorem Regs.withMetrics_ien (g : Regs) (r : EyeMetrics) : (g.withMetrics r).ien = g.ien := rfl
@[simp] theorem Regs.withMetrics_cfg (g : Regs) (r : EyeMetrics) : (g.withMetrics r).cfg = g.cfg := rfl
@[simp] theorem Regs.withMetrics_sps (g : Regs) (r : EyeMetrics) : (g.withMetrics r).sps = g.sps := rfl
@[simp] theorem Regs.withMetrics_alpha (g : Regs) (r : EyeMetrics) : (g.withMetrics r).alpha = g.alpha := rfl
@[simp] theorem Regs.withMetrics_xlen (g : Regs) (r : EyeMetrics) : (g.withMetrics r).xlen = g.xlen := rfl
@[simp] theorem Regs.withMetrics_ylen (g : Regs) (r : EyeMetrics) : (g.withMetrics r).ylen = g.ylen := rfl
@[simp] theorem Regs.withMetrics_clen (g : Regs) (r : EyeMetrics) : (g.withMetrics r).clen = g.clen := rfl
@[simp] theorem Regs.withMetrics_blen (g : Regs) (r : EyeMetrics) : (g.withMetrics r).blen = g.blen := rfl
@[simp] theorem Regs.withMetrics_tlen (g : Regs) (r : EyeMetrics) : (g.withMetrics r).tlen = g.tlen := rfl
@[simp] theorem Regs.withMetrics_smoothA (g : Regs) (r : EyeMetrics) : (g.withMetrics r).smoothA = g.smoothA := rfl
@[simp] theorem Regs.withMetrics_kmIter (g : Regs) (r : EyeMetrics) : (g.withMetrics r).kmIter = g.kmIter := rfl
@[simp] theorem Regs.withMetrics_kmEps (g : Regs) (r : EyeMetrics) : (g.withMetrics r).kmEps = g.kmEps := rfl
@[simp] theorem Regs.withMetrics_thresh (g : Regs) (r : EyeMetrics) : (g.withMetrics r).thresh = g.thresh := rfl
@[simp] theorem Regs.withMetrics_centLo (g : Regs) (r : EyeMetrics) : (g.withMetrics r).centLo = g.centLo := rfl
@[simp] theorem Regs.withMetrics_centHi (g : Regs) (r : EyeMetrics) : (g.withMetrics r).centHi = g.centHi := rfl
@[simp] theorem Regs.withMetrics_kmStat (g : Regs) (r : EyeMetrics) : (g.withMetrics r).kmStat = g.kmStat := rfl
@[simp] theorem Regs.withMetrics_bestOff (g : Regs) (r : EyeMetrics) : (g.withMetrics r).bestOff = g.bestOff := rfl
@[simp] theorem Regs.withMetrics_eyeOpen (g : Regs) (r : EyeMetrics) : (g.withMetrics r).eyeOpen = g.eyeOpen := rfl
@[simp] theorem Regs.withMetrics_eyeMinHigh (g : Regs) (r : EyeMetrics) : (g.withMetrics r).eyeMinHigh = g.eyeMinHigh := rfl
@[simp] theorem Regs.withMetrics_eyeMaxLow (g : Regs) (r : EyeMetrics) : (g.withMetrics r).eyeMaxLow = g.eyeMaxLow := rfl
@[simp] theorem Regs.withMetrics_eyeStat (g : Regs) (r : EyeMetrics) : (g.withMetrics r).eyeStat = g.eyeStat := rfl
@[simp] theorem Regs.withMetrics_emBestOff (g : Regs) (r : EyeMetrics) : (g.withMetrics r).emBestOff = BitVec.ofNat 7 r.best := rfl
@[simp] theorem Regs.withMetrics_emMaxOpen (g : Regs) (r : EyeMetrics) : (g.withMetrics r).emMaxOpen = wordOfInt r.maxOpen := rfl
@[simp] theorem Regs.withMetrics_emMinOpen (g : Regs) (r : EyeMetrics) : (g.withMetrics r).emMinOpen = wordOfInt r.minOpen := rfl
@[simp] theorem Regs.withMetrics_emMinHigh (g : Regs) (r : EyeMetrics) : (g.withMetrics r).emMinHigh = wordOfInt r.minHigh := rfl
@[simp] theorem Regs.withMetrics_emMaxLow (g : Regs) (r : EyeMetrics) : (g.withMetrics r).emMaxLow = wordOfInt r.maxLow := rfl
@[simp] theorem Regs.withMetrics_errInfo (g : Regs) (r : EyeMetrics) : (g.withMetrics r).errInfo = g.errInfo := rfl
@[simp] theorem Regs.withThreshold_ien (g : Regs) (r : Threshold) : (g.withThreshold r).ien = g.ien := rfl
@[simp] theorem Regs.withThreshold_cfg (g : Regs) (r : Threshold) : (g.withThreshold r).cfg = g.cfg := rfl
@[simp] theorem Regs.withThreshold_sps (g : Regs) (r : Threshold) : (g.withThreshold r).sps = g.sps := rfl
@[simp] theorem Regs.withThreshold_alpha (g : Regs) (r : Threshold) : (g.withThreshold r).alpha = g.alpha := rfl
@[simp] theorem Regs.withThreshold_xlen (g : Regs) (r : Threshold) : (g.withThreshold r).xlen = g.xlen := rfl
@[simp] theorem Regs.withThreshold_ylen (g : Regs) (r : Threshold) : (g.withThreshold r).ylen = g.ylen := rfl
@[simp] theorem Regs.withThreshold_clen (g : Regs) (r : Threshold) : (g.withThreshold r).clen = g.clen := rfl
@[simp] theorem Regs.withThreshold_blen (g : Regs) (r : Threshold) : (g.withThreshold r).blen = g.blen := rfl
@[simp] theorem Regs.withThreshold_tlen (g : Regs) (r : Threshold) : (g.withThreshold r).tlen = g.tlen := rfl
@[simp] theorem Regs.withThreshold_smoothA (g : Regs) (r : Threshold) : (g.withThreshold r).smoothA = g.smoothA := rfl
@[simp] theorem Regs.withThreshold_kmIter (g : Regs) (r : Threshold) : (g.withThreshold r).kmIter = g.kmIter := rfl
@[simp] theorem Regs.withThreshold_kmEps (g : Regs) (r : Threshold) : (g.withThreshold r).kmEps = g.kmEps := rfl
@[simp] theorem Regs.withThreshold_thresh (g : Regs) (r : Threshold) : (g.withThreshold r).thresh = wordOfInt r.thr := rfl
@[simp] theorem Regs.withThreshold_centLo (g : Regs) (r : Threshold) : (g.withThreshold r).centLo = wordOfInt r.lo := rfl
@[simp] theorem Regs.withThreshold_centHi (g : Regs) (r : Threshold) : (g.withThreshold r).centHi = wordOfInt r.hi := rfl
@[simp] theorem Regs.withThreshold_kmStat (g : Regs) (r : Threshold) : (g.withThreshold r).kmStat = { iters := BitVec.ofNat 8 r.iters, conv := r.conv } := rfl
@[simp] theorem Regs.withThreshold_bestOff (g : Regs) (r : Threshold) : (g.withThreshold r).bestOff = g.bestOff := rfl
@[simp] theorem Regs.withThreshold_eyeOpen (g : Regs) (r : Threshold) : (g.withThreshold r).eyeOpen = g.eyeOpen := rfl
@[simp] theorem Regs.withThreshold_eyeMinHigh (g : Regs) (r : Threshold) : (g.withThreshold r).eyeMinHigh = g.eyeMinHigh := rfl
@[simp] theorem Regs.withThreshold_eyeMaxLow (g : Regs) (r : Threshold) : (g.withThreshold r).eyeMaxLow = g.eyeMaxLow := rfl
@[simp] theorem Regs.withThreshold_eyeStat (g : Regs) (r : Threshold) : (g.withThreshold r).eyeStat = g.eyeStat := rfl
@[simp] theorem Regs.withThreshold_emBestOff (g : Regs) (r : Threshold) : (g.withThreshold r).emBestOff = g.emBestOff := rfl
@[simp] theorem Regs.withThreshold_emMaxOpen (g : Regs) (r : Threshold) : (g.withThreshold r).emMaxOpen = g.emMaxOpen := rfl
@[simp] theorem Regs.withThreshold_emMinOpen (g : Regs) (r : Threshold) : (g.withThreshold r).emMinOpen = g.emMinOpen := rfl
@[simp] theorem Regs.withThreshold_emMinHigh (g : Regs) (r : Threshold) : (g.withThreshold r).emMinHigh = g.emMinHigh := rfl
@[simp] theorem Regs.withThreshold_emMaxLow (g : Regs) (r : Threshold) : (g.withThreshold r).emMaxLow = g.emMaxLow := rfl
@[simp] theorem Regs.withThreshold_errInfo (g : Regs) (r : Threshold) : (g.withThreshold r).errInfo = g.errInfo := rfl

/-! ### Updates of the state -/

@[simp] theorem State.answer_status (s : State) (r : Reply) : (s.answer r).status = s.status := rfl
@[simp] theorem State.answer_regs (s : State) (r : Reply) : (s.answer r).regs = s.regs := rfl
@[simp] theorem State.answer_buf0 (s : State) (r : Reply) : (s.answer r).buf0 = s.buf0 := rfl
@[simp] theorem State.answer_buf1 (s : State) (r : Reply) : (s.answer r).buf1 = s.buf1 := rfl
@[simp] theorem State.answer_coef (s : State) (r : Reply) : (s.answer r).coef = s.coef := rfl
@[simp] theorem State.answer_bits (s : State) (r : Reply) : (s.answer r).bits = s.bits := rfl
@[simp] theorem State.answer_opLatch (s : State) (r : Reply) : (s.answer r).opLatch = s.opLatch := rfl
@[simp] theorem State.answer_rst (s : State) (r : Reply) : (s.answer r).rst = s.rst := rfl
@[simp] theorem State.answer_free (s : State) (r : Reply) : (s.answer r).free = s.free := rfl
@[simp] theorem State.answer_events (s : State) (r : Reply) : (s.answer r).events = s.events.tail := rfl
@[simp] theorem State.answer_reply (s : State) (r : Reply) : (s.answer r).reply = r := rfl
@[simp] theorem State.errorEntry_status (s : State) (e : ErrCode) (w : Word) : (s.errorEntry e w).status = s.status.errored e := rfl
@[simp] theorem State.errorEntry_regs (s : State) (e : ErrCode) (w : Word) : (s.errorEntry e w).regs = { s.regs with errInfo := w } := rfl
@[simp] theorem State.errorEntry_buf0 (s : State) (e : ErrCode) (w : Word) : (s.errorEntry e w).buf0 = s.buf0 := rfl
@[simp] theorem State.errorEntry_buf1 (s : State) (e : ErrCode) (w : Word) : (s.errorEntry e w).buf1 = s.buf1 := rfl
@[simp] theorem State.errorEntry_coef (s : State) (e : ErrCode) (w : Word) : (s.errorEntry e w).coef = s.coef := rfl
@[simp] theorem State.errorEntry_bits (s : State) (e : ErrCode) (w : Word) : (s.errorEntry e w).bits = s.bits := rfl
@[simp] theorem State.errorEntry_opLatch (s : State) (e : ErrCode) (w : Word) : (s.errorEntry e w).opLatch = s.opLatch := rfl
@[simp] theorem State.errorEntry_rst (s : State) (e : ErrCode) (w : Word) : (s.errorEntry e w).rst = s.rst := rfl
@[simp] theorem State.errorEntry_free (s : State) (e : ErrCode) (w : Word) : (s.errorEntry e w).free = s.free := rfl
@[simp] theorem State.errorEntry_events (s : State) (e : ErrCode) (w : Word) : (s.errorEntry e w).events = s.events := rfl
@[simp] theorem State.errorEntry_reply (s : State) (e : ErrCode) (w : Word) : (s.errorEntry e w).reply = s.reply := rfl
@[simp] theorem State.writeStatus_status (s : State) (v : Word) : (s.writeStatus v).status = s.status.writeOneToClear v := rfl
@[simp] theorem State.writeStatus_regs (s : State) (v : Word) : (s.writeStatus v).regs = s.regs := rfl
@[simp] theorem State.writeStatus_buf0 (s : State) (v : Word) : (s.writeStatus v).buf0 = s.buf0 := rfl
@[simp] theorem State.writeStatus_buf1 (s : State) (v : Word) : (s.writeStatus v).buf1 = s.buf1 := rfl
@[simp] theorem State.writeStatus_coef (s : State) (v : Word) : (s.writeStatus v).coef = s.coef := rfl
@[simp] theorem State.writeStatus_bits (s : State) (v : Word) : (s.writeStatus v).bits = s.bits := rfl
@[simp] theorem State.writeStatus_opLatch (s : State) (v : Word) : (s.writeStatus v).opLatch = s.opLatch := rfl
@[simp] theorem State.writeStatus_rst (s : State) (v : Word) : (s.writeStatus v).rst = s.rst := rfl
@[simp] theorem State.writeStatus_free (s : State) (v : Word) : (s.writeStatus v).free = s.free := rfl
@[simp] theorem State.writeStatus_events (s : State) (v : Word) : (s.writeStatus v).events = s.events := rfl
@[simp] theorem State.writeStatus_reply (s : State) (v : Word) : (s.writeStatus v).reply = s.reply := rfl
@[simp] theorem State.accept_status (s : State) (w : Word) : (s.accept w).status = s.status.accepted := rfl
@[simp] theorem State.accept_regs (s : State) (w : Word) : (s.accept w).regs = s.regs := rfl
@[simp] theorem State.accept_buf0 (s : State) (w : Word) : (s.accept w).buf0 = s.buf0 := rfl
@[simp] theorem State.accept_buf1 (s : State) (w : Word) : (s.accept w).buf1 = s.buf1 := rfl
@[simp] theorem State.accept_coef (s : State) (w : Word) : (s.accept w).coef = s.coef := rfl
@[simp] theorem State.accept_bits (s : State) (w : Word) : (s.accept w).bits = s.bits := rfl
@[simp] theorem State.accept_opLatch (s : State) (w : Word) : (s.accept w).opLatch = some (opField w) := rfl
@[simp] theorem State.accept_rst (s : State) (w : Word) : (s.accept w).rst = s.rst := rfl
@[simp] theorem State.accept_free (s : State) (w : Word) : (s.accept w).free = s.free := rfl
@[simp] theorem State.accept_events (s : State) (w : Word) : (s.accept w).events = s.events := rfl
@[simp] theorem State.accept_reply (s : State) (w : Word) : (s.accept w).reply = s.reply := rfl
@[simp] theorem State.dropWrite_status (s : State) : (s.dropWrite).status = { s.status with ebusy := true } := rfl
@[simp] theorem State.dropWrite_regs (s : State) : (s.dropWrite).regs = s.regs := rfl
@[simp] theorem State.dropWrite_buf0 (s : State) : (s.dropWrite).buf0 = s.buf0 := rfl
@[simp] theorem State.dropWrite_buf1 (s : State) : (s.dropWrite).buf1 = s.buf1 := rfl
@[simp] theorem State.dropWrite_coef (s : State) : (s.dropWrite).coef = s.coef := rfl
@[simp] theorem State.dropWrite_bits (s : State) : (s.dropWrite).bits = s.bits := rfl
@[simp] theorem State.dropWrite_opLatch (s : State) : (s.dropWrite).opLatch = s.opLatch := rfl
@[simp] theorem State.dropWrite_rst (s : State) : (s.dropWrite).rst = s.rst := rfl
@[simp] theorem State.dropWrite_free (s : State) : (s.dropWrite).free = s.free := rfl
@[simp] theorem State.dropWrite_events (s : State) : (s.dropWrite).events = s.events := rfl
@[simp] theorem State.dropWrite_reply (s : State) : (s.dropWrite).reply = s.reply := rfl
@[simp] theorem State.setDest_status (s : State) (m : Memory) : (s.setDest m).status = s.status := by
  unfold State.setDest; split <;> rfl
@[simp] theorem State.setDest_regs (s : State) (m : Memory) : (s.setDest m).regs = s.regs := by
  unfold State.setDest; split <;> rfl
@[simp] theorem State.setDest_buf0 (s : State) (m : Memory) : (s.setDest m).buf0 = (if s.status.bank then m else s.buf0) := by
  unfold State.setDest; split <;> rfl
@[simp] theorem State.setDest_buf1 (s : State) (m : Memory) : (s.setDest m).buf1 = (if s.status.bank then s.buf1 else m) := by
  unfold State.setDest; split <;> rfl
@[simp] theorem State.setDest_coef (s : State) (m : Memory) : (s.setDest m).coef = s.coef := by
  unfold State.setDest; split <;> rfl
@[simp] theorem State.setDest_bits (s : State) (m : Memory) : (s.setDest m).bits = s.bits := by
  unfold State.setDest; split <;> rfl
@[simp] theorem State.setDest_opLatch (s : State) (m : Memory) : (s.setDest m).opLatch = s.opLatch := by
  unfold State.setDest; split <;> rfl
@[simp] theorem State.setDest_rst (s : State) (m : Memory) : (s.setDest m).rst = s.rst := by
  unfold State.setDest; split <;> rfl
@[simp] theorem State.setDest_free (s : State) (m : Memory) : (s.setDest m).free = s.free := by
  unfold State.setDest; split <;> rfl
@[simp] theorem State.setDest_events (s : State) (m : Memory) : (s.setDest m).events = s.events := by
  unfold State.setDest; split <;> rfl
@[simp] theorem State.setDest_reply (s : State) (m : Memory) : (s.setDest m).reply = s.reply := by
  unfold State.setDest; split <;> rfl
@[simp] theorem State.setSource_status (s : State) (m : Memory) : (s.setSource m).status = s.status := by
  unfold State.setSource; split <;> rfl
@[simp] theorem State.setSource_regs (s : State) (m : Memory) : (s.setSource m).regs = s.regs := by
  unfold State.setSource; split <;> rfl
@[simp] theorem State.setSource_buf0 (s : State) (m : Memory) : (s.setSource m).buf0 = (if s.status.bank then s.buf0 else m) := by
  unfold State.setSource; split <;> rfl
@[simp] theorem State.setSource_buf1 (s : State) (m : Memory) : (s.setSource m).buf1 = (if s.status.bank then m else s.buf1) := by
  unfold State.setSource; split <;> rfl
@[simp] theorem State.setSource_coef (s : State) (m : Memory) : (s.setSource m).coef = s.coef := by
  unfold State.setSource; split <;> rfl
@[simp] theorem State.setSource_bits (s : State) (m : Memory) : (s.setSource m).bits = s.bits := by
  unfold State.setSource; split <;> rfl
@[simp] theorem State.setSource_opLatch (s : State) (m : Memory) : (s.setSource m).opLatch = s.opLatch := by
  unfold State.setSource; split <;> rfl
@[simp] theorem State.setSource_rst (s : State) (m : Memory) : (s.setSource m).rst = s.rst := by
  unfold State.setSource; split <;> rfl
@[simp] theorem State.setSource_free (s : State) (m : Memory) : (s.setSource m).free = s.free := by
  unfold State.setSource; split <;> rfl
@[simp] theorem State.setSource_events (s : State) (m : Memory) : (s.setSource m).events = s.events := by
  unfold State.setSource; split <;> rfl
@[simp] theorem State.setSource_reply (s : State) (m : Memory) : (s.setSource m).reply = s.reply := by
  unfold State.setSource; split <;> rfl
@[simp] theorem State.writeY_status (s : State) (ys : List Word) : (s.writeY ys).status = s.status := by
  simp [State.writeY]
@[simp] theorem State.writeY_regs (s : State) (ys : List Word) : (s.writeY ys).regs = { s.regs with ylen := BitVec.ofNat 13 ys.length } := by
  simp [State.writeY]
@[simp] theorem State.writeY_buf0 (s : State) (ys : List Word) : (s.writeY ys).buf0 = (if s.status.bank then memOfWords ys s.free else s.buf0) := by
  simp [State.writeY]
@[simp] theorem State.writeY_buf1 (s : State) (ys : List Word) : (s.writeY ys).buf1 = (if s.status.bank then s.buf1 else memOfWords ys s.free) := by
  simp [State.writeY]
@[simp] theorem State.writeY_coef (s : State) (ys : List Word) : (s.writeY ys).coef = s.coef := by
  simp [State.writeY]
@[simp] theorem State.writeY_bits (s : State) (ys : List Word) : (s.writeY ys).bits = s.bits := by
  simp [State.writeY]
@[simp] theorem State.writeY_opLatch (s : State) (ys : List Word) : (s.writeY ys).opLatch = s.opLatch := by
  simp [State.writeY]
@[simp] theorem State.writeY_rst (s : State) (ys : List Word) : (s.writeY ys).rst = s.rst := by
  simp [State.writeY]
@[simp] theorem State.writeY_free (s : State) (ys : List Word) : (s.writeY ys).free = s.free + 1 := by
  simp [State.writeY]
@[simp] theorem State.writeY_events (s : State) (ys : List Word) : (s.writeY ys).events = s.events := by
  simp [State.writeY]
@[simp] theorem State.writeY_reply (s : State) (ys : List Word) : (s.writeY ys).reply = s.reply := by
  simp [State.writeY]
@[simp] theorem State.writeB_status (s : State) (bs : List Bool) : (s.writeB bs).status = s.status := rfl
@[simp] theorem State.writeB_regs (s : State) (bs : List Bool) : (s.writeB bs).regs = { s.regs with blen := BitVec.ofNat 13 bs.length } := rfl
@[simp] theorem State.writeB_buf0 (s : State) (bs : List Bool) : (s.writeB bs).buf0 = s.buf0 := rfl
@[simp] theorem State.writeB_buf1 (s : State) (bs : List Bool) : (s.writeB bs).buf1 = s.buf1 := rfl
@[simp] theorem State.writeB_coef (s : State) (bs : List Bool) : (s.writeB bs).coef = s.coef := rfl
@[simp] theorem State.writeB_bits (s : State) (bs : List Bool) : (s.writeB bs).bits = memOfBits bs s.free := rfl
@[simp] theorem State.writeB_opLatch (s : State) (bs : List Bool) : (s.writeB bs).opLatch = s.opLatch := rfl
@[simp] theorem State.writeB_rst (s : State) (bs : List Bool) : (s.writeB bs).rst = s.rst := rfl
@[simp] theorem State.writeB_free (s : State) (bs : List Bool) : (s.writeB bs).free = s.free + 1 := rfl
@[simp] theorem State.writeB_events (s : State) (bs : List Bool) : (s.writeB bs).events = s.events := rfl
@[simp] theorem State.writeB_reply (s : State) (bs : List Bool) : (s.writeB bs).reply = s.reply := rfl
@[simp] theorem State.writeC_status (s : State) (ws : List Word) : (s.writeC ws).status = s.status := rfl
@[simp] theorem State.writeC_regs (s : State) (ws : List Word) : (s.writeC ws).regs = { s.regs with clen := BitVec.ofNat 9 ws.length } := rfl
@[simp] theorem State.writeC_buf0 (s : State) (ws : List Word) : (s.writeC ws).buf0 = s.buf0 := rfl
@[simp] theorem State.writeC_buf1 (s : State) (ws : List Word) : (s.writeC ws).buf1 = s.buf1 := rfl
@[simp] theorem State.writeC_coef (s : State) (ws : List Word) : (s.writeC ws).coef = memOfWords ws s.free := rfl
@[simp] theorem State.writeC_bits (s : State) (ws : List Word) : (s.writeC ws).bits = s.bits := rfl
@[simp] theorem State.writeC_opLatch (s : State) (ws : List Word) : (s.writeC ws).opLatch = s.opLatch := rfl
@[simp] theorem State.writeC_rst (s : State) (ws : List Word) : (s.writeC ws).rst = s.rst := rfl
@[simp] theorem State.writeC_free (s : State) (ws : List Word) : (s.writeC ws).free = s.free + 1 := rfl
@[simp] theorem State.writeC_events (s : State) (ws : List Word) : (s.writeC ws).events = s.events := rfl
@[simp] theorem State.writeC_reply (s : State) (ws : List Word) : (s.writeC ws).reply = s.reply := rfl
@[simp] theorem State.searched_status (s : State) : (s.searched).status = s.status := rfl
@[simp] theorem State.searched_regs (s : State) : (s.searched).regs = s.regs.withEye (eyeSearch s.samples s.sps) := rfl
@[simp] theorem State.searched_buf0 (s : State) : (s.searched).buf0 = s.buf0 := rfl
@[simp] theorem State.searched_buf1 (s : State) : (s.searched).buf1 = s.buf1 := rfl
@[simp] theorem State.searched_coef (s : State) : (s.searched).coef = s.coef := rfl
@[simp] theorem State.searched_bits (s : State) : (s.searched).bits = s.bits := rfl
@[simp] theorem State.searched_opLatch (s : State) : (s.searched).opLatch = s.opLatch := rfl
@[simp] theorem State.searched_rst (s : State) : (s.searched).rst = s.rst := rfl
@[simp] theorem State.searched_free (s : State) : (s.searched).free = s.free := rfl
@[simp] theorem State.searched_events (s : State) : (s.searched).events = s.events := rfl
@[simp] theorem State.searched_reply (s : State) : (s.searched).reply = s.reply := rfl
@[simp] theorem State.thresholded_status (s : State) : (s.thresholded).status = s.status := rfl
@[simp] theorem State.thresholded_regs (s : State) : (s.thresholded).regs = s.regs.withThreshold (kMeans s.magnitudes s.kmIter s.kmEps) := rfl
@[simp] theorem State.thresholded_buf0 (s : State) : (s.thresholded).buf0 = s.buf0 := rfl
@[simp] theorem State.thresholded_buf1 (s : State) : (s.thresholded).buf1 = s.buf1 := rfl
@[simp] theorem State.thresholded_coef (s : State) : (s.thresholded).coef = s.coef := rfl
@[simp] theorem State.thresholded_bits (s : State) : (s.thresholded).bits = s.bits := rfl
@[simp] theorem State.thresholded_opLatch (s : State) : (s.thresholded).opLatch = s.opLatch := rfl
@[simp] theorem State.thresholded_rst (s : State) : (s.thresholded).rst = s.rst := rfl
@[simp] theorem State.thresholded_free (s : State) : (s.thresholded).free = s.free := rfl
@[simp] theorem State.thresholded_events (s : State) : (s.thresholded).events = s.events := rfl
@[simp] theorem State.thresholded_reply (s : State) : (s.thresholded).reply = s.reply := rfl
@[simp] theorem State.resetStep_status (s : State) : (s.resetStep).status = State.reset.status := rfl
@[simp] theorem State.resetStep_regs (s : State) : (s.resetStep).regs = State.reset.regs := rfl
@[simp] theorem State.resetStep_buf0 (s : State) : (s.resetStep).buf0 = unspecifiedMemory s.free := rfl
@[simp] theorem State.resetStep_buf1 (s : State) : (s.resetStep).buf1 = unspecifiedMemory (s.free + 1) := rfl
@[simp] theorem State.resetStep_coef (s : State) : (s.resetStep).coef = unspecifiedMemory (s.free + 2) := rfl
@[simp] theorem State.resetStep_bits (s : State) : (s.resetStep).bits = unspecifiedMemory (s.free + 3) := rfl
@[simp] theorem State.resetStep_opLatch (s : State) : (s.resetStep).opLatch = none := rfl
@[simp] theorem State.resetStep_rst (s : State) : (s.resetStep).rst = true := rfl
@[simp] theorem State.resetStep_free (s : State) : (s.resetStep).free = s.free + 4 := rfl
@[simp] theorem State.resetStep_events (s : State) : (s.resetStep).events = s.events.tail := rfl
@[simp] theorem State.resetStep_reply (s : State) : (s.resetStep).reply = .none := rfl
@[simp] theorem Completion.finish_status (c : Completion) : (c.finish).status = c.state.status.completed c.saturated c.short := rfl
@[simp] theorem Completion.finish_regs (c : Completion) : (c.finish).regs = c.state.regs := rfl
@[simp] theorem Completion.finish_buf0 (c : Completion) : (c.finish).buf0 = c.state.buf0 := rfl
@[simp] theorem Completion.finish_buf1 (c : Completion) : (c.finish).buf1 = c.state.buf1 := rfl
@[simp] theorem Completion.finish_coef (c : Completion) : (c.finish).coef = c.state.coef := rfl
@[simp] theorem Completion.finish_bits (c : Completion) : (c.finish).bits = c.state.bits := rfl
@[simp] theorem Completion.finish_opLatch (c : Completion) : (c.finish).opLatch = none := rfl
@[simp] theorem Completion.finish_rst (c : Completion) : (c.finish).rst = c.state.rst := rfl
@[simp] theorem Completion.finish_free (c : Completion) : (c.finish).free = c.state.free := rfl
@[simp] theorem Completion.finish_events (c : Completion) : (c.finish).events = c.state.events.tail := rfl
@[simp] theorem Completion.finish_reply (c : Completion) : (c.finish).reply = .none := rfl

/-! ### The buffers after an update -/

@[simp] theorem State.setDest_dest (s : State) (m : Memory) : (s.setDest m).dest = m := by
  unfold State.dest; simp; split <;> rfl
@[simp] theorem State.setDest_source (s : State) (m : Memory) : (s.setDest m).source = s.source := by
  unfold State.source; simp; split <;> simp_all
@[simp] theorem State.setSource_source (s : State) (m : Memory) : (s.setSource m).source = m := by
  unfold State.source; simp; split <;> rfl
@[simp] theorem State.setSource_dest (s : State) (m : Memory) : (s.setSource m).dest = s.dest := by
  unfold State.dest; simp; split <;> simp_all
@[simp] theorem State.writeY_dest (s : State) (ys : List Word) : (s.writeY ys).dest = memOfWords ys s.free := by
  unfold State.dest; simp; split <;> rfl
@[simp] theorem State.writeY_source (s : State) (ys : List Word) : (s.writeY ys).source = s.source := by
  unfold State.source; simp; split <;> simp_all
@[simp] theorem Completion.finish_source (c : Completion) : c.finish.source = c.state.source := rfl
@[simp] theorem Completion.finish_dest (c : Completion) : c.finish.dest = c.state.dest := rfl
@[simp] theorem State.answer_source (s : State) (r : Reply) : (s.answer r).source = s.source := rfl
@[simp] theorem State.answer_dest (s : State) (r : Reply) : (s.answer r).dest = s.dest := rfl

end Sys2Proof.Machine
end

