-- ==== Sys2Proof/Laws/Ops.lean ====
section
/-! SUPPORT. What the shared events can do, said once: issue, completion, the effect of every command, a step. -/

namespace Sys2Proof.Machine

/-! ### The two events of a command -/

theorem runCommand_busy {i : Instr} {check : State → Option ErrCode} {effect : State → Completion} {s : State}
    (h : s.status.busy = true) : runCommand i check effect s = .next (effect s).finish := by simp [runCommand, h]

theorem runCommand_idle {i : Instr} {check : State → Option ErrCode} {effect : State → Completion} {s : State}
    (h : s.status.busy = false) : runCommand i check effect s = .next (s.issue (encode i) (check s)) := by
  simp [runCommand, h]

/-- A command always answers a next state: its completion or its issue. -/
theorem runCommand_next {i : Instr} {check : State → Option ErrCode} {effect : State → Completion} {s : State}
    {o : Host.Outcome State Fault Refusal} (h : runCommand i check effect s = o) :
    (s.status.busy = true ∧ o = .next (effect s).finish) ∨
      (s.status.busy = false ∧ o = .next (s.issue (encode i) (check s))) := by
  cases hb : s.status.busy
  · exact .inr ⟨rfl, by rw [← h, runCommand_idle hb]⟩
  · exact .inl ⟨rfl, by rw [← h, runCommand_busy hb]⟩

theorem issue_idle_ok {s : State} (w : Word) (hb : s.status.busy = false) (he : s.status.err = false) :
    s.issue w none = (s.accept w).answer .written := by simp [State.issue, hb, he]

theorem issue_idle_error {s : State} (w : Word) (e : ErrCode) (hb : s.status.busy = false) (he : s.status.err = false) :
    s.issue w (some e) = (s.errorEntry e w).answer .written := by simp [State.issue, hb, he]

theorem issue_locked {s : State} (w : Word) (e : Option ErrCode) (hb : s.status.busy = false)
    (he : s.status.err = true) : s.issue w e = s.answer .written := by simp [State.issue, hb, he]

theorem issue_busy {s : State} (w : Word) (e : Option ErrCode) (hb : s.status.busy = true) :
    s.issue w e = s.dropWrite.answer .written := by simp [State.issue, hb]

/-- Everything an issue can do (10_state.md R62). -/
theorem issue_cases (s : State) (w : Word) (e : Option ErrCode) :
    (s.status.busy = true ∧ s.issue w e = s.dropWrite.answer .written) ∨
      (s.status.busy = false ∧ s.status.err = true ∧ s.issue w e = s.answer .written) ∨
      (s.status.busy = false ∧ s.status.err = false ∧ ∃ c, e = some c ∧ s.issue w e = (s.errorEntry c w).answer .written) ∨
      (s.status.busy = false ∧ s.status.err = false ∧ e = none ∧ s.issue w e = (s.accept w).answer .written) := by
  cases hb : s.status.busy
  · cases he : s.status.err
    · cases e with
      | none => exact .inr (.inr (.inr ⟨rfl, rfl, rfl, issue_idle_ok w hb he⟩))
      | some c => exact .inr (.inr (.inl ⟨rfl, rfl, c, rfl, issue_idle_error w c hb he⟩))
    · exact .inr (.inl ⟨rfl, rfl, issue_locked w e hb he⟩)
  · exact .inl ⟨rfl, issue_busy w e hb⟩

/-! ### The effect of every command -/

/-- The effect that an arm of exec applies at its completion. -/
def effectOf : Instr → State → Completion
  | .nop => nopEffect
  | .xchg => xchgEffect
  | .kgen => kgenEffect
  | .txfilt => txfiltEffect
  | .txhold => txholdEffect
  | .txshape => txshapeEffect
  | .rxfilt => rxfiltEffect
  | .rxmatch => rxmatchEffect
  | .rxsmooth => rxsmoothEffect
  | .rxmavg => rxmavgEffect
  | .eyesrch => eyesrchEffect
  | .decim => decimEffect
  | .recover => recoverEffect
  | .eyemet => eyemetEffect
  | .thresh => threshEffect
  | .decideBits => decideEffect
  | .decodeBits => decodeEffect
  | .bresize => bresizeEffect

/-- Every arm of exec is the two events of its command. -/
theorem exec_eq_runCommand (i : Instr) (s : State) : exec i s = runCommand i (acceptanceCheck i) (effectOf i) s := by
  cases i <;> rfl

theorem exec_busy {i : Instr} {s : State} (h : s.status.busy = true) : exec i s = .next (effectOf i s).finish := by
  rw [exec_eq_runCommand, runCommand_busy h]

theorem exec_idle {i : Instr} {s : State} (h : s.status.busy = false) :
    exec i s = .next (s.issue (encode i) (acceptanceCheck i s)) := by
  rw [exec_eq_runCommand, runCommand_idle h]

/-- The shapes an effect can have: the same memories, a new Y, a new B, or a new C. Whatever the shape, the pins, the input
list and OPLATCH stay, and the flags stay but for BANK under XCHG. -/
theorem effect_shape (i : Instr) (s : State) :
    (∃ (g : Regs) (b : Bool), (effectOf i s).state = { s with regs := g, status := { s.status with bank := b } } ∧
        (i ≠ .xchg → b = s.status.bank)) ∨
      (∃ (g : Regs) (ys : List Word), (effectOf i s).state = ({ s with regs := g }).writeY ys) ∨
      (∃ (g : Regs) (bs : List Bool), (effectOf i s).state = ({ s with regs := g }).writeB bs) ∨
      (∃ ws : List Word, (effectOf i s).state = s.writeC ws) := by
  have short (f : State → Completion) (hf : ∃ ys, (f s).state = s.writeY ys) :
      ∃ ys, (unlessShort f s).state = s.writeY ys := by
    unfold unlessShort; split
    · exact ⟨_, rfl⟩
    · exact hf
  have ofY {c : Completion} (h : ∃ ys, c.state = s.writeY ys) :
      ∃ (g : Regs) (ys : List Word), c.state = ({ s with regs := g }).writeY ys :=
    let ⟨ys, h⟩ := h; ⟨s.regs, ys, h⟩
  cases i with
  | nop => exact .inl ⟨s.regs, s.status.bank, rfl, fun _ => rfl⟩
  | xchg => exact .inl ⟨_, _, rfl, fun h => absurd rfl h⟩
  | kgen => exact .inr (.inr (.inr ⟨_, rfl⟩))
  | txfilt =>
    refine .inr (.inl (ofY ?_))
    show ∃ ys, (txfiltEffect s).state = _
    unfold txfiltEffect; split
    · exact ⟨_, rfl⟩
    · exact ⟨_, rfl⟩
  | txhold => exact .inr (.inl (ofY ⟨_, rfl⟩))
  | txshape => exact .inr (.inl (ofY ⟨_, rfl⟩))
  | rxfilt =>
    refine .inr (.inl (ofY ?_))
    show ∃ ys, (rxfiltEffect s).state = _
    unfold rxfiltEffect; split
    · exact short _ ⟨_, rfl⟩
    · split
      · exact short _ ⟨_, rfl⟩
      · exact short _ ⟨_, rfl⟩
  | rxmatch => exact .inr (.inl (ofY (short _ ⟨_, rfl⟩)))
  | rxsmooth => exact .inr (.inl (ofY (short _ ⟨_, rfl⟩)))
  | rxmavg => exact .inr (.inl (ofY (short _ ⟨_, rfl⟩)))
  | eyesrch => exact .inl ⟨_, s.status.bank, rfl, fun _ => rfl⟩
  | decim => exact .inr (.inl (ofY ⟨_, rfl⟩))
  | recover => exact .inr (.inl ⟨_, _, rfl⟩)
  | eyemet => exact .inl ⟨_, s.status.bank, rfl, fun _ => rfl⟩
  | thresh => exact .inl ⟨_, s.status.bank, rfl, fun _ => rfl⟩
  | decideBits => exact .inr (.inr (.inl ⟨s.regs, _, rfl⟩))
  | decodeBits => exact .inr (.inr (.inl ⟨_, _, rfl⟩))
  | bresize => exact .inr (.inr (.inl ⟨s.regs, _, rfl⟩))

/-! ### A step -/

theorem step_run {s : State} {i : Instr} (h : s.nextAction = .run i) : step s = exec i s := by simp [step, h]

theorem step_settle {s t : State} (h : s.nextAction = .settle t) : step s = .next t := by simp [step, h]

/-- Everything a step that answers a next state can be: a command's completion, a command's issue, or an event in which no
command has part. -/
theorem step_cases {s t : State} (h : step s = .next t) :
    (∃ i, s.nextAction = .run i ∧ s.status.busy = true ∧ t = (effectOf i s).finish) ∨
      (∃ i, s.nextAction = .run i ∧ s.status.busy = false ∧ t = s.issue (encode i) (acceptanceCheck i s)) ∨
      s.nextAction = .settle t := by
  unfold step at h
  split at h
  · next i hi =>
    cases hb : s.status.busy
    · rw [exec_idle hb] at h
      exact .inr (.inl ⟨i, hi, rfl, by cases h; rfl⟩)
    · rw [exec_busy hb] at h
      exact .inl ⟨i, hi, rfl, by cases h; rfl⟩
  · next u hu => cases h; exact .inr (.inr hu)
  · cases h

/-- A command runs only where the engine completes the latched one, or where the host's CMD write issues it. -/
theorem nextAction_run {s : State} {i : Instr} (h : s.nextAction = .run i) :
    s.rst = false ∧
      ((s.status.busy = true ∧ ∃ op, s.opLatch = some op ∧ decodeOp op = some i) ∨
        (s.status.busy = false ∧ ∃ r rest, s.events = .bus r :: rest ∧ r.target = some (.reg .cmd) ∧ r.we = true ∧
          decode r.wdata = some i)) := by
  have engine (h : s.engineAction = .run i) :
      s.rst = false ∧ s.status.busy = true ∧ ∃ op, s.opLatch = some op ∧ decodeOp op = some i := by
    unfold State.engineAction at h
    split at h
    · cases h
    · next hn =>
      simp only [Bool.or_eq_true, Bool.not_eq_true', not_or, Bool.not_eq_true, Bool.not_eq_false] at hn
      split at h
      · next j hj =>
        cases h
        cases ho : s.opLatch with
        | none => simp [ho] at hj
        | some op => exact ⟨hn.1, hn.2, op, rfl, by simpa [ho] using hj⟩
      · cases h
  unfold State.nextAction at h
  split at h
  · have := engine h; exact ⟨this.1, .inl this.2⟩
  · have := engine h; exact ⟨this.1, .inl this.2⟩
  · cases h
  · next r rest he =>
    unfold State.busAction at h
    split at h
    · cases h
    · next hr =>
      split at h
      · cases h
      · next t ht =>
        split at h
        · next hw =>
          unfold State.writeAction at h
          split at h
          · cases h
          · next hb =>
            split at h
            · split at h
              · next j hj =>
                cases h
                exact ⟨by simpa using hr, .inr ⟨by simpa using hb, r, rest, he, ht, hw, hj⟩⟩
              · cases h
            · cases h
        · cases h

end Sys2Proof.Machine
end

