-- ==== Sys2Proof/Laws/Bus.lean ====
section
/-! SUPPORT. The bus: where each transaction of the host's notation goes, and every way an event that no command has part in
can end. -/

namespace Sys2Proof.Machine

@[simp] theorem cmdWrite_target (w : Word) : (cmdWrite w).target = some (.reg .cmd) := by
  simp [cmdWrite, BusReq.target, targetAt, regAt]

theorem regTarget (g : Reg) (we : Bool) (v : Word) :
    BusReq.target { we := we, addr := BitVec.ofNat 16 g.offset, size := 2#2, wdata := v } = some (.reg g) := by
  cases g <;> simp [BusReq.target, targetAt, regAt, Reg.offset]

theorem sourceTarget {i : Nat} (h : i < 4096) (we : Bool) (v : Word) :
    BusReq.target { we := we, addr := BitVec.ofNat 16 (0x4000 + 4 * i), size := 2#2, wdata := v } = some (.source i) := by
  have e : (BitVec.ofNat 16 (0x4000 + 4 * i)).toNat = 0x4000 + 4 * i := by
    rw [BitVec.toNat_ofNat]; exact Nat.mod_eq_of_lt (by omega)
  simp only [BusReq.target, e, targetAt]
  rw [if_neg (by simp), if_neg (by omega), if_neg (by omega), if_neg (by omega), if_pos (by omega), Nat.add_sub_cancel_left,
    Nat.mul_div_cancel_left _ (by decide)]

theorem destTarget {i : Nat} (h : i < 4096) (we : Bool) (v : Word) :
    BusReq.target { we := we, addr := BitVec.ofNat 16 (0x8000 + 4 * i), size := 2#2, wdata := v } = some (.dest i) := by
  have e : (BitVec.ofNat 16 (0x8000 + 4 * i)).toNat = 0x8000 + 4 * i := by
    rw [BitVec.toNat_ofNat]; exact Nat.mod_eq_of_lt (by omega)
  simp only [BusReq.target, e, targetAt]
  rw [if_neg (by simp), if_neg (by omega), if_neg (by omega), if_neg (by omega), if_neg (by omega), if_pos (by omega), Nat.add_sub_cancel_left,
    Nat.mul_div_cancel_left _ (by decide)]

theorem coefTarget {k : Nat} (h : k < 385) (we : Bool) (v : Word) :
    BusReq.target { we := we, addr := BitVec.ofNat 16 (0x1000 + 4 * k), size := 2#2, wdata := v } = some (.coef k) := by
  have e : (BitVec.ofNat 16 (0x1000 + 4 * k)).toNat = 0x1000 + 4 * k := by
    rw [BitVec.toNat_ofNat]; exact Nat.mod_eq_of_lt (by omega)
  simp only [BusReq.target, e, targetAt]
  rw [if_neg (by simp), if_neg (by omega), if_pos (by omega), Nat.add_sub_cancel_left,
    Nat.mul_div_cancel_left _ (by decide)]

theorem bitTarget {j : Nat} (h : j < 128) (we : Bool) (v : Word) :
    BusReq.target { we := we, addr := BitVec.ofNat 16 (0x2000 + 4 * j), size := 2#2, wdata := v } = some (.bitWord j) := by
  have e : (BitVec.ofNat 16 (0x2000 + 4 * j)).toNat = 0x2000 + 4 * j := by
    rw [BitVec.toNat_ofNat]; exact Nat.mod_eq_of_lt (by omega)
  simp only [BusReq.target, e, targetAt]
  rw [if_neg (by simp), if_neg (by omega), if_neg (by omega), if_pos (by omega), Nat.add_sub_cancel_left,
    Nat.mul_div_cancel_left _ (by decide)]

/-- The windows bound the indices: X and Y below 4096, C below 385, B below 128 words (20_memory.md R71). -/
theorem target_bounds {r : BusReq} {t : Target} (h : r.target = some t) :
    (∀ i, t = .source i → i < 4096) ∧ (∀ i, t = .dest i → i < 4096) ∧ (∀ k, t = .coef k → k < 385) ∧
      ∀ j, t = .bitWord j → j < 128 := by
  unfold BusReq.target at h
  split at h
  · cases h
  · next hok =>
    unfold targetAt at h
    repeat' split at h
    · cases hr : regAt (r.addr.toNat / 4) <;> simp [hr] at h; subst h; simp
    all_goals cases h
    all_goals refine ⟨?_, ?_, ?_, ?_⟩ <;> intro n hn <;> cases hn <;> omega

/-! ### What the next event does, transaction by transaction -/

theorem nextAction_error {s : State} {r : BusReq} {rest : List Event} (he : s.events = .bus r :: rest)
    (hr : s.rst = false) (ht : r.target = none) : s.nextAction = .settle s.busError := by
  simp only [State.nextAction, he, State.busAction, hr, ht, Bool.false_eq_true, if_false]

theorem nextAction_read {s : State} {r : BusReq} {rest : List Event} {t : Target} (he : s.events = .bus r :: rest)
    (hr : s.rst = false) (ht : r.target = some t) (hw : r.we = false) : s.nextAction = .settle (s.busRead t) := by
  simp only [State.nextAction, he, State.busAction, hr, ht, hw, Bool.false_eq_true, if_false]

theorem nextAction_drop {s : State} {r : BusReq} {rest : List Event} {t : Target} (he : s.events = .bus r :: rest)
    (hr : s.rst = false) (ht : r.target = some t) (hw : r.we = true) (hb : s.status.busy = true) :
    s.nextAction = .settle (s.dropWrite.answer .written) := by
  simp only [State.nextAction, he, State.busAction, hr, ht, hw, State.writeAction, hb, Bool.false_eq_true, if_false, if_true]

theorem nextAction_write {s : State} {r : BusReq} {rest : List Event} {t : Target} (he : s.events = .bus r :: rest)
    (hr : s.rst = false) (ht : r.target = some t) (hw : r.we = true) (hb : s.status.busy = false) (hc : t ≠ .reg .cmd) :
    s.nextAction = .settle ((s.writeTarget t r.wdata).answer .written) := by
  simp only [State.nextAction, he, State.busAction, hr, ht, hw, State.writeAction, hb, Bool.false_eq_true, if_false, if_true]

theorem nextAction_command {s : State} {r : BusReq} {rest : List Event} {i : Instr} (he : s.events = .bus r :: rest)
    (hr : s.rst = false) (ht : r.target = some (.reg .cmd)) (hw : r.we = true) (hb : s.status.busy = false)
    (hd : decode r.wdata = some i) : s.nextAction = .run i := by
  simp only [State.nextAction, he, State.busAction, hr, ht, hw, State.writeAction, hb, hd, Bool.false_eq_true, if_false,
    if_true]

theorem nextAction_illegal {s : State} {r : BusReq} {rest : List Event} (he : s.events = .bus r :: rest)
    (hr : s.rst = false) (ht : r.target = some (.reg .cmd)) (hw : r.we = true) (hb : s.status.busy = false)
    (hd : decode r.wdata = none) : s.nextAction = .settle (s.issue r.wdata (some .illegalOp)) := by
  simp only [State.nextAction, he, State.busAction, hr, ht, hw, State.writeAction, hb, hd, Bool.false_eq_true, if_false,
    if_true]

theorem nextAction_complete {s : State} {op : BitVec 8} {i : Instr}
    (he : s.events = [] ∨ ∃ rest, s.events = .engine :: rest) (hr : s.rst = false) (hb : s.status.busy = true)
    (ho : s.opLatch = some op) (hd : decodeOp op = some i) : s.nextAction = .run i := by
  rcases he with he | ⟨rest, he⟩ <;> simp [State.nextAction, he, State.engineAction, hr, hb, ho, hd]

theorem issue_events (s : State) (w : Word) (e : Option ErrCode) : (s.issue w e).events = s.events.tail := by
  rcases issue_cases s w e with ⟨-, h⟩ | ⟨-, -, h⟩ | ⟨-, -, c, -, h⟩ | ⟨-, -, -, h⟩ <;> simp [h]

/-- Everything an event can be in which no command has part: a reset, the pin going low, an event while `rst` is high, the
engine with nothing to complete, a bus error, a read, a dropped write, an illegal command word, a write that stores. -/
theorem nextAction_settle {s t : State} (h : s.nextAction = .settle t) :
    (∃ rest, s.events = .rst true :: rest ∧ t = s.resetStep) ∨
    (∃ rest, s.events = .rst false :: rest ∧ t = { s.answer .none with rst := false }) ∨
    ((s.rst = true ∨ (s.status.busy = false ∧ (s.events = [] ∨ ∃ rest, s.events = .engine :: rest))) ∧
      t = s.answer .none) ∨
    (s.rst = false ∧ ∃ r rest, s.events = .bus r :: rest ∧
      ((r.target = none ∧ t = s.busError) ∨
       (∃ a, r.target = some a ∧ r.we = false ∧ t = s.busRead a) ∨
       (∃ a, r.target = some a ∧ r.we = true ∧ s.status.busy = true ∧ t = s.dropWrite.answer .written) ∨
       (r.target = some (.reg .cmd) ∧ r.we = true ∧ s.status.busy = false ∧ decode r.wdata = none ∧
          t = s.issue r.wdata (some .illegalOp)) ∨
       (∃ a, r.target = some a ∧ a ≠ .reg .cmd ∧ r.we = true ∧ s.status.busy = false ∧
          t = (s.writeTarget a r.wdata).answer .written))) := by
  have engine (hev : s.events = [] ∨ ∃ rest, s.events = .engine :: rest) (h : s.engineAction = .settle t) :
      (s.rst = true ∨ (s.status.busy = false ∧ (s.events = [] ∨ ∃ rest, s.events = .engine :: rest))) ∧
        t = s.answer .none := by
    unfold State.engineAction at h
    split at h
    · next hc =>
      cases h
      refine ⟨?_, rfl⟩
      rcases Bool.or_eq_true _ _ ▸ hc with hr | hb
      · exact .inl hr
      · exact .inr ⟨by simpa using hb, hev⟩
    · split at h <;> cases h
  unfold State.nextAction at h
  split at h
  · next he => exact .inr (.inr (.inl (engine (.inl he) h)))
  · next rest he => exact .inr (.inr (.inl (engine (.inr ⟨rest, he⟩) h)))
  · next high rest he =>
    unfold State.rstAction at h
    cases h
    cases high
    · exact .inr (.inl ⟨rest, he, rfl⟩)
    · exact .inl ⟨rest, he, rfl⟩
  · next r rest he =>
    unfold State.busAction at h
    split at h
    · next hr => cases h; exact .inr (.inr (.inl ⟨.inl hr, rfl⟩))
    · next hr =>
      have hr : s.rst = false := by simpa using hr
      refine .inr (.inr (.inr ⟨hr, r, rest, he, ?_⟩))
      split at h
      · next ht => cases h; exact .inl ⟨ht, rfl⟩
      · next a ht =>
        split at h
        · next hw =>
          unfold State.writeAction at h
          split at h
          · next hb => cases h; exact .inr (.inr (.inl ⟨a, ht, hw, hb, rfl⟩))
          · next hb =>
            have hb : s.status.busy = false := by simpa using hb
            split at h
            · split at h
              · cases h
              · next hd => cases h; exact .inr (.inr (.inr (.inl ⟨ht, hw, hb, hd, rfl⟩)))
            · next hne => cases h; exact .inr (.inr (.inr (.inr ⟨a, ht, hne, hw, hb, rfl⟩)))
        · next hw => cases h; exact .inr (.inl ⟨a, ht, by simpa using hw, rfl⟩)

end Sys2Proof.Machine
end

