-- ==== Sys2Proof/Laws/Commands.lean ====
section
/-! SUPPORT. What every completion does besides its result: the flags, the pins, the memories it leaves, and the words it
stores; what the acceptance checks grant. -/

namespace Sys2Proof.Machine

/-! ### Completions -/

/-- The flags an effect leaves are those it finds, BANK apart. -/
theorem effect_status (i : Instr) (s : State) :
    ∃ b, (effectOf i s).state.status = { s.status with bank := b } ∧ (i ≠ .xchg → b = s.status.bank) := by
  rcases effect_shape i s with ⟨g, b, h, hb⟩ | ⟨g, ys, h⟩ | ⟨g, bs, h⟩ | ⟨ws, h⟩
  · exact ⟨b, by rw [h], hb⟩
  · exact ⟨s.status.bank, by simp [h], fun _ => rfl⟩
  · exact ⟨s.status.bank, by simp [h], fun _ => rfl⟩
  · exact ⟨s.status.bank, by simp [h], fun _ => rfl⟩

/-- An effect leaves the pins, the input list and the last answer. -/
theorem effect_rest (i : Instr) (s : State) :
    (effectOf i s).state.rst = s.rst ∧ (effectOf i s).state.events = s.events ∧ (effectOf i s).state.reply = s.reply := by
  rcases effect_shape i s with ⟨g, b, h, -⟩ | ⟨g, ys, h⟩ | ⟨g, bs, h⟩ | ⟨ws, h⟩ <;> simp [h]

/-- Every completion of an accepted command, said once (10_state.md R61). -/
theorem effect_completes (i : Instr) (s : State) :
    Completes s (effectOf i s).finish ((effectOf i s).saturated = true) ((effectOf i s).short = true) := by
  obtain ⟨b, h, -⟩ := effect_status i s
  obtain ⟨h1, h2, -⟩ := effect_rest i s
  simp [Completes, h, h1, h2]

theorem Completes.congr {s t : State} {p p' q q' : Prop} (h : Completes s t p q) (hp : p ↔ p') (hq : q ↔ q') :
    Completes s t p' q' := by rw [← propext hp, ← propext hq]; exact h

/-! ### Frames -/

theorem SameBytes.rfl' (m : Memory) : SameBytes m m := fun _ => rfl

theorem keepsAllButY_of_writeY {s : State} {c : Completion} {g : Regs} {ys : List Word}
    (h : c.state = ({ s with regs := g }).writeY ys) : KeepsAllButY s c.finish := by
  refine ⟨by simp [h], ?_, ?_, ?_⟩
  · rw [Completion.finish_source, h, State.writeY_source]; exact fun _ => rfl
  · rw [Completion.finish_coef, h, State.writeY_coef]; exact fun _ => rfl
  · rw [Completion.finish_bits, h, State.writeY_bits]; exact fun _ => rfl

theorem keepsAllButB_of_writeB {s : State} {c : Completion} {g : Regs} {bs : List Bool}
    (h : c.state = ({ s with regs := g }).writeB bs) : KeepsAllButB s c.finish := by
  refine ⟨by simp [h], ?_, ?_, ?_⟩ <;> simp only [Completion.finish_source, Completion.finish_dest, Completion.finish_coef, h]
    <;> exact fun _ => rfl

theorem keepsAllButC_of_writeC {s : State} {c : Completion} {ws : List Word} (h : c.state = s.writeC ws) :
    KeepsAllButC s c.finish := by
  refine ⟨by simp [h], ?_, ?_, ?_⟩ <;> simp only [Completion.finish_source, Completion.finish_dest, Completion.finish_bits, h]
    <;> exact fun _ => rfl

theorem keepsMemories_of_regs {s : State} {c : Completion} {g : Regs} (h : c.state = { s with regs := g }) :
    KeepsMemories s c.finish := by
  refine ⟨by simp [h], ?_, ?_, ?_, ?_⟩ <;>
    simp only [Completion.finish_source, Completion.finish_dest, Completion.finish_coef, Completion.finish_bits, h] <;>
    exact fun _ => rfl

/-! ### What a completion stores -/

theorem writeY_yWord (s : State) (ys : List Word) {n : Nat} (h : n < ys.length) : (s.writeY ys).yWord n = ys[n] := by
  unfold State.yWord; rw [State.writeY_dest, memOfWords_word _ _ _ h]

theorem finish_yWord {s : State} {c : Completion} {ys : List Word} (h : c.state = s.writeY ys) {n : Nat}
    (hn : n < ys.length) : c.finish.yWord n = ys[n] := by
  have := writeY_yWord s ys hn
  unfold State.yWord at *
  rw [Completion.finish_dest, h, this]

theorem finish_regs_writeY {s : State} {c : Completion} {ys : List Word} (h : c.state = s.writeY ys) :
    c.finish.regs = { s.regs with ylen := c.finish.regs.ylen } := by simp [h]

theorem finish_regs_writeB {s : State} {c : Completion} {bs : List Bool} (h : c.state = s.writeB bs) :
    c.finish.regs = { s.regs with blen := c.finish.regs.blen } := by simp [h]

/-- A stored integer in the word range reads back. -/
theorem finish_y {s : State} {c : Completion} {ys : List Int} (h : c.state = s.writeY (ys.map wordOfInt)) {n : Nat}
    (hn : n < ys.length) (hr : Config.minw ≤ ys[n] ∧ ys[n] ≤ Config.maxw) : c.finish.y n = ys[n] := by
  unfold State.y
  rw [finish_yWord h (by simpa using hn)]
  simp [toInt_wordOfInt hr.1 hr.2]

theorem finish_ylen {s : State} {c : Completion} {ys : List Word} (h : c.state = s.writeY ys) (hy : ys.length < 8192) :
    c.finish.ylen = ys.length := by
  simp [State.ylen, h, Nat.mod_eq_of_lt hy]

theorem finish_cWord {s : State} {c : Completion} {ws : List Word} (h : c.state = s.writeC ws) {n : Nat}
    (hn : n < ws.length) : c.finish.cWord n = ws[n] := by
  unfold State.cWord
  rw [Completion.finish_coef, h, State.writeC_coef, memOfWords_word _ _ _ hn]

theorem finish_bBit {s : State} {c : Completion} {bs : List Bool} (h : c.state = s.writeB bs) {n : Nat}
    (hn : n < bs.length) : c.finish.bBit n = bs[n] := by
  unfold State.bBit
  rw [Completion.finish_bits, h, State.writeB_bits, memOfBits_bit _ _ _ hn]

/-! ### Operands -/

@[simp] theorem samples_length (s : State) : s.samples.length = s.xlen := by simp [State.samples]
@[simp] theorem kernel_length (s : State) : s.kernel.length = s.clen := by simp [State.kernel]

theorem samples_getD (s : State) {i : Nat} (h : i < s.xlen) : s.samples.getD i 0 = s.x i := by
  simp [State.samples, List.getD, List.getElem?_map, List.getElem?_range h]

theorem samples_getElem (s : State) {i : Nat} (h : i < s.samples.length) : s.samples[i] = s.x i := by
  simp [State.samples]

theorem kernel_getD (s : State) {k : Nat} (h : k < s.clen) : s.kernel.getD k 0 = s.c k := by
  simp [State.kernel, List.getD, List.getElem?_map, List.getElem?_range h]

theorem mem_samples {s : State} {v : Int} : v ∈ s.samples ↔ ∃ i, i < s.xlen ∧ s.x i = v := by simp [State.samples]

theorem x_range (s : State) (i : Nat) : Config.minw ≤ s.x i ∧ s.x i ≤ Config.maxw := toInt_range _

theorem magnitudes_length (s : State) : s.magnitudes.length = s.xlen := by
  unfold State.magnitudes; split <;> simp

theorem ternary_iff (s : State) : s.ternary = true ↔ s.enc = 2 ∨ s.enc = 3 := by simp [State.ternary]

theorem magnitudes_eq (s : State) : s.magnitudes = (List.range s.xlen).map (decisionValue s) := by
  unfold State.magnitudes State.samples
  cases h : s.ternary
  · have : ¬(s.enc = 2 ∨ s.enc = 3) := by rw [← ternary_iff, h]; simp
    simp [decisionValue, this]
  · have := (ternary_iff s).mp h
    simp [decisionValue, this]

theorem absSaturates_iff (s : State) : s.absSaturates = true ↔ AbsSaturation s := by
  simp [State.absSaturates, AbsSaturation, ternary_iff, mem_samples]

/-! ### The acceptance checks (60_exceptions.md R184) -/

/-- The checks look at the registers only. -/
theorem acceptanceCheck_congr (i : Instr) {s t : State} (h : t.regs = s.regs) :
    acceptanceCheck i t = acceptanceCheck i s := by
  cases i <;> simp [acceptanceCheck, checkNop, checkXchg, checkKgen, checkTxhold, checkTxshape, checkTxfilt, checkRxmatch,
    checkRxsmooth, checkRxmavg, checkRxfilt, checkEyesrch, checkDecim, checkRecover, checkEyemet, checkThresh, checkDecide,
    checkDecode, checkBresize, State.badSps, State.badXlen, State.badUpsampledLen, State.badKernel, State.badSmooth,
    State.shapedKind, State.ternary, State.enc, State.sps, State.xlen, State.clen, State.smoothA, State.fkind, State.alpha,
    State.bestOff, State.tlen, h]

theorem firstError_none {a b c : Bool} : firstError a b c = none ↔ a = false ∧ b = false ∧ c = false := by
  cases a <;> cases b <;> cases c <;> simp [firstError]

theorem badSps_false (s : State) : s.badSps = false ↔ 1 ≤ s.sps ∧ s.sps ≤ 64 := by
  simp [State.badSps, Config.smax]; omega

theorem badXlen_false (s : State) : s.badXlen = false ↔ s.xlen ≤ 4096 := by simp [State.badXlen, Config.depth]

theorem badUpsampledLen_false (s : State) : s.badUpsampledLen = false ↔ s.xlen ≤ 4096 ∧ s.xlen * s.sps ≤ 4096 := by
  simp [State.badUpsampledLen, badXlen_false, Config.depth]

theorem badKernel_false (s : State) : s.badKernel = false ↔ 1 ≤ s.clen ∧ s.clen ≤ 385 := by
  simp [State.badKernel, Config.lmax]; omega

theorem badSmooth_false (s : State) : s.badSmooth = false ↔ s.smoothA ≤ 16777216 := by simp [State.badSmooth, Config.one]

end Sys2Proof.Machine
end

