-- ==== Sys2Proof/Laws/Kernel.lean ====
section
/-! SUPPORT. The generated kernel: its symmetry, and bounds of the ideal kernel it is measured against. -/

namespace Sys2Proof.Machine

/-- Property K2 (41_txfilter.md R114). -/
theorem tapGen_symm (kind : KernelKind) (S A k : Nat) (h : k ≤ 6 * S) : tapGen kind S A (6 * S - k) = tapGen kind S A k := by
  unfold tapGen
  congr 1
  omega

/-- The two halves of the kernel lie at opposite times (41_txfilter.md R112). -/
theorem tapTime_mirror (S k : Nat) (h : k ≤ 6 * S) : tapTime S (6 * S - k) = -tapTime S k := by
  unfold tapTime
  rw [Nat.cast_sub h]
  push_cast
  ring

theorem sincPi_neg (t : ℝ) : sincPi (-t) = sincPi t := by
  unfold sincPi
  by_cases h : t = 0
  · simp [h]
  · simp [h, Real.sin_neg]

theorem raisedCosine_neg (α t : ℝ) : raisedCosine α (-t) = raisedCosine α t := by
  unfold raisedCosine
  simp [sincPi_neg, Real.cos_neg]

theorem rootPulse_neg (α t : ℝ) : rootPulse α (-t) = rootPulse α t := by
  unfold rootPulse
  by_cases h : t = 0
  · simp [h]
  · simp only [neg_eq_zero, h, abs_neg, if_false]
    split
    · rfl
    · rw [show Real.pi * -t * (1 - α) = -(Real.pi * t * (1 - α)) by ring,
        show Real.pi * -t * (1 + α) = -(Real.pi * t * (1 + α)) by ring, Real.sin_neg, Real.cos_neg,
        show (4 * α * -t) ^ 2 = (4 * α * t) ^ 2 by ring,
        show -Real.sin (Real.pi * t * (1 - α)) + 4 * α * -t * Real.cos (Real.pi * t * (1 + α)) =
          -(Real.sin (Real.pi * t * (1 - α)) + 4 * α * t * Real.cos (Real.pi * t * (1 + α))) by ring,
        show Real.pi * -t * (1 - (4 * α * t) ^ 2) = -(Real.pi * t * (1 - (4 * α * t) ^ 2)) by ring, neg_div_neg_eq]

/-- The square of a tap is part of the energy. -/
theorem sq_prototypeTap_le (kind : KernelKind) (S A k : Nat) (h : k ≤ 6 * S) :
    prototypeTap kind S A k ^ 2 ≤ prototypeEnergy kind S A :=
  Finset.single_le_sum (f := fun k => prototypeTap kind S A k ^ 2) (fun _ _ => sq_nonneg _)
    (Finset.mem_range.mpr (by omega))

/-- No ideal tap is larger than √S. -/
theorem abs_idealTap_le (kind : KernelKind) (S A k : Nat) (h : k ≤ 6 * S) : |idealTap kind S A k| ≤ √(S : ℝ) := by
  have hg : |prototypeTap kind S A k| ≤ √(prototypeEnergy kind S A) :=
    Real.abs_le_sqrt (sq_prototypeTap_le kind S A k h)
  unfold idealTap
  rw [abs_div, abs_mul, abs_of_nonneg (Real.sqrt_nonneg _), abs_of_nonneg (Real.sqrt_nonneg (prototypeEnergy kind S A))]
  refine div_le_of_le_mul₀ (Real.sqrt_nonneg _) (Real.sqrt_nonneg _) ?_
  rw [mul_comm]
  exact mul_le_mul_of_nonneg_left hg (Real.sqrt_nonneg _)

/-- Some bound holds of every generator: K3 is a premise that can be met (log 7). -/
theorem tapGenAccurate_large : TapGenAccurate (2 ^ 32) := by
  refine ⟨by norm_num, fun kind S A k _ hS _ hk => ?_⟩
  have h1 : |((tapGen kind S A k).toInt : ℝ)| ≤ 2 ^ 31 := by
    have := toInt_range (tapGen kind S A k)
    unfold Config.minw Config.maxw at this
    rw [abs_le]
    constructor
    · exact_mod_cast (by omega : (-2 ^ 31 : Int) ≤ _)
    · exact_mod_cast (by omega : _ ≤ (2 ^ 31 : Int))
  have h2 : |idealTap kind S A k| ≤ 8 := by
    refine (abs_idealTap_le kind S A k hk).trans ?_
    rw [Real.sqrt_le_left (by norm_num)]
    have : (S : ℝ) ≤ 64 := by exact_mod_cast hS
    linarith
  have h3 : |(16777216 : ℝ) * idealTap kind S A k| ≤ 16777216 * 8 := by
    rw [abs_mul, abs_of_pos (by norm_num : (0 : ℝ) < 16777216)]
    exact mul_le_mul_of_nonneg_left h2 (by norm_num)
  calc _ ≤ |((tapGen kind S A k).toInt : ℝ)| + |(16777216 : ℝ) * idealTap kind S A k| := abs_sub _ _
    _ ≤ 2 ^ 31 + 16777216 * 8 := add_le_add h1 h3
    _ ≤ 2 ^ 32 := by norm_num

end Sys2Proof.Machine
end

