-- ==== Sys2Proof/Laws/PerInstr.lean ====
section
/-! SUPPORT. Facts about each command as a word, one lemma per constructor: the encoded word is well formed, its opcode byte
decodes to the command, and every command is in the list of all. -/

namespace Sys2Proof.Laws

/-- The word of a command is a legal word whose OP field, the part OPLATCH keeps, selects the command (30_encoding.md R90,
R92; 10_state.md R58). -/
def LatchedOpcode.Statement (i : Instr) : Prop :=
  i.wellFormed = true ∧ wordWellFormed (encode i) = true ∧ decodeOp (opField (encode i)) = some i ∧ i ∈ Instr.all

theorem LatchedOpcode.nop : LatchedOpcode.Statement .nop := ⟨rfl, by decide, rfl, by decide⟩
theorem LatchedOpcode.xchg : LatchedOpcode.Statement .xchg := ⟨rfl, by decide, rfl, by decide⟩
theorem LatchedOpcode.kgen : LatchedOpcode.Statement .kgen := ⟨rfl, by decide, rfl, by decide⟩
theorem LatchedOpcode.txfilt : LatchedOpcode.Statement .txfilt := ⟨rfl, by decide, rfl, by decide⟩
theorem LatchedOpcode.txhold : LatchedOpcode.Statement .txhold := ⟨rfl, by decide, rfl, by decide⟩
theorem LatchedOpcode.txshape : LatchedOpcode.Statement .txshape := ⟨rfl, by decide, rfl, by decide⟩
theorem LatchedOpcode.rxfilt : LatchedOpcode.Statement .rxfilt := ⟨rfl, by decide, rfl, by decide⟩
theorem LatchedOpcode.rxmatch : LatchedOpcode.Statement .rxmatch := ⟨rfl, by decide, rfl, by decide⟩
theorem LatchedOpcode.rxsmooth : LatchedOpcode.Statement .rxsmooth := ⟨rfl, by decide, rfl, by decide⟩
theorem LatchedOpcode.rxmavg : LatchedOpcode.Statement .rxmavg := ⟨rfl, by decide, rfl, by decide⟩
theorem LatchedOpcode.eyesrch : LatchedOpcode.Statement .eyesrch := ⟨rfl, by decide, rfl, by decide⟩
theorem LatchedOpcode.decim : LatchedOpcode.Statement .decim := ⟨rfl, by decide, rfl, by decide⟩
theorem LatchedOpcode.recover : LatchedOpcode.Statement .recover := ⟨rfl, by decide, rfl, by decide⟩
theorem LatchedOpcode.eyemet : LatchedOpcode.Statement .eyemet := ⟨rfl, by decide, rfl, by decide⟩
theorem LatchedOpcode.thresh : LatchedOpcode.Statement .thresh := ⟨rfl, by decide, rfl, by decide⟩
theorem LatchedOpcode.decideBits : LatchedOpcode.Statement .decideBits := ⟨rfl, by decide, rfl, by decide⟩
theorem LatchedOpcode.decodeBits : LatchedOpcode.Statement .decodeBits := ⟨rfl, by decide, rfl, by decide⟩
theorem LatchedOpcode.bresize : LatchedOpcode.Statement .bresize := ⟨rfl, by decide, rfl, by decide⟩

end Sys2Proof.Laws
end

