-- ==== Sys2Proof/Tests/Slice0.lean ====
section
/-! SUPPORT. Tests: ill-formed command words, decoding, one step of every command on a vector of spec/95_test_vectors.md,
the bus, and for every statement with hypotheses a state that meets them. -/

namespace Sys2Proof.Tests

open Sys2Proof Sys2Proof.Machine

/-! ### Helpers -/

/-- The registers after reset, with the two CFG fields and SPS set. -/
def cfgRegs (fkind enc : BitVec 2) (sps : BitVec 7) : Regs := { State.reset.regs with cfg := { fkind, enc }, sps }

/-- Command `i` stands accepted, with X = `xs` in BUF0 and C = `cs`; the engine completes it next. -/
def standing (i : Instr) (g : Regs) (xs cs : List Word) : State :=
  { State.reset with
    status := { State.reset.status with busy := true }, opLatch := some (opField (encode i)),
    regs := { g with xlen := BitVec.ofNat 13 xs.length, clen := BitVec.ofNat 9 cs.length },
    buf0 := memOfWords xs 0, coef := memOfWords cs 2 }

/-- An idle state with given registers and inputs. -/
def idle (g : Regs) (es : List Event) : State := { State.reset with regs := g, events := es }

/-- The state after one step. -/
def after (s : State) : Option State :=
  match step s with
  | .next t => some t
  | _ => none

/-- Y below YLEN. -/
def outWords (s : State) : List Word := (List.range s.ylen).map s.yWord
/-- B below BLEN. -/
def outBits (s : State) : List Bool := (List.range s.blen).map s.bBit

/-- q(1.0), q(-1.0), q(0.5), q(0.25) (spec/95_test_vectors.md). -/
def one : Word := 0x01000000#32
def neg : Word := 0xFF000000#32
def half : Word := 0x00800000#32
def quarter : Word := 0x00400000#32

/-! ### Well-formedness: 60_exceptions.md R181, V17 -/

theorem test_zero_field_refused : wordWellFormed 0x00000112#32 = false ∧ zeroFieldClear 0x00000112#32 = false := by decide
theorem test_reserved_opcode_refused : wordWellFormed 0x00000018#32 = false ∧ opFieldKnown 0x00000018#32 = false := by decide
theorem test_unknown_opcode_refused : wordWellFormed 0x000000FF#32 = false ∧ opFieldKnown 0x000000FF#32 = false := by decide
theorem test_high_bit_refused : wordWellFormed 0x80000000#32 = false ∧ decode 0x80000000#32 = none := by decide

/-! ### Decoding: ZERO (24 bits), family and member (4 bits each), written from 30_encoding.md R90 to R92 -/

theorem test_decode_control :
    decode (0x000000#24 ++ 0x0#4 ++ 0x0#4) = some .nop ∧ decode (0x000000#24 ++ 0x0#4 ++ 0x1#4) = some .xchg := by decide

theorem test_decode_filters :
    decode (0x000000#24 ++ 0x1#4 ++ 0x0#4) = some .kgen ∧ decode (0x000000#24 ++ 0x1#4 ++ 0x1#4) = some .txfilt ∧
    decode (0x000000#24 ++ 0x1#4 ++ 0x2#4) = some .txhold ∧ decode (0x000000#24 ++ 0x1#4 ++ 0x3#4) = some .txshape ∧
    decode (0x000000#24 ++ 0x1#4 ++ 0x4#4) = some .rxfilt ∧ decode (0x000000#24 ++ 0x1#4 ++ 0x5#4) = some .rxmatch ∧
    decode (0x000000#24 ++ 0x1#4 ++ 0x6#4) = some .rxsmooth ∧ decode (0x000000#24 ++ 0x1#4 ++ 0x7#4) = some .rxmavg := by
  decide

theorem test_decode_clock :
    decode (0x000000#24 ++ 0x2#4 ++ 0x0#4) = some .eyesrch ∧ decode (0x000000#24 ++ 0x2#4 ++ 0x1#4) = some .decim ∧
    decode (0x000000#24 ++ 0x2#4 ++ 0x2#4) = some .recover ∧ decode (0x000000#24 ++ 0x2#4 ++ 0x3#4) = some .eyemet := by
  decide

theorem test_decode_decoder :
    decode (0x000000#24 ++ 0x3#4 ++ 0x0#4) = some .thresh ∧ decode (0x000000#24 ++ 0x3#4 ++ 0x1#4) = some .decideBits ∧
    decode (0x000000#24 ++ 0x3#4 ++ 0x2#4) = some .decodeBits ∧ decode (0x000000#24 ++ 0x3#4 ++ 0x3#4) = some .bresize := by
  decide

theorem test_decode_illegal :
    decode (0x000000#24 ++ 0x0#4 ++ 0x2#4) = none ∧ decode (0x000000#24 ++ 0x1#4 ++ 0x8#4) = none ∧
    decode (0x000000#24 ++ 0x2#4 ++ 0x4#4) = none ∧ decode (0x000000#24 ++ 0x3#4 ++ 0x4#4) = none ∧
    decode (0x000000#24 ++ 0x4#4 ++ 0x0#4) = none ∧ decode (0x000001#24 ++ 0x1#4 ++ 0x2#4) = none := by decide

theorem test_table_word : decodeTableWord 32 0x22 = some .recover ∧ decodeTableWord 32 0x0122 = none := by decide

/-- The first command after reset: TXHOLD with SPS = 0 is refused (V16); NOP is accepted (V15). -/
theorem test_first_command :
    (after (State.reset.withFetchWord 32 0x12)).map (fun t => (t.status.toWord, t.regs.errInfo)) =
      some (0x00000204#32, 0x00000012#32) ∧
    (after (State.reset.withFetchWord 32 0x00)).map (fun t => (t.status.toWord, t.opLatch)) =
      some (0x00000001#32, some 0x00#8) := by decide

/-! ### One step of every command -/

/-- V15, V19: NOP. -/
theorem test_nop : (after (standing .nop (cfgRegs 0 0 0) [] [])).map (fun t => (t.status.toWord, t.opLatch)) =
    some (0x00000002#32, none) := by decide

/-- V13: XCHG. -/
theorem test_xchg : (after (standing .xchg (cfgRegs 0 0 0) [0x11111111#32] [])).map
    (fun t => (t.yWord 0, t.status.toWord, t.xlen, t.ylen)) = some (0x11111111#32, 0x00000042#32, 0, 1) := by decide

/-- V20: KGEN, SPS = 4: CLEN = 25. -/
theorem test_kgen : (after (standing .kgen (cfgRegs 1 0 4) [] [])).map (fun t => (t.clen, t.status.toWord)) =
    some (25, 0x00000002#32) := by decide +kernel

/-- V24: TXHOLD. -/
theorem test_txhold : (after (standing .txhold (cfgRegs 0 0 3) [one, neg] [])).map outWords =
    some [one, one, one, neg, neg, neg] := by decide +kernel

/-- V26: TXHOLD of an empty input. -/
theorem test_txhold_empty : (after (standing .txhold (cfgRegs 0 0 4) [] [])).map (fun t => (t.ylen, t.status.toWord)) =
    some (0, 0x00000022#32) := by decide +kernel

/-- V27: TXSHAPE. -/
theorem test_txshape : (after (standing .txshape (cfgRegs 1 0 2) [one, neg] [half, one, half])).map outWords =
    some [0x01000000#32, 0x00000000#32, 0xFF000000#32, 0xFF800000#32] := by decide +kernel

/-- V30a: TXSHAPE saturates. -/
theorem test_txshape_saturates : (after (standing .txshape (cfgRegs 1 0 1) [0x02000000#32] [0x7FFFFFFF#32])).map
    (fun t => (outWords t, t.status.toWord)) = some ([0x7FFFFFFF#32], 0x0000000A#32) := by decide +kernel

/-- V30: TXFILT holds when FKIND = 0. -/
theorem test_txfilt_hold : (after (standing .txfilt (cfgRegs 0 0 3) [one, neg] [])).map outWords =
    some [one, one, one, neg, neg, neg] := by decide +kernel

/-- V30: TXFILT shapes when FKIND = 2, whatever kernel C holds. -/
theorem test_txfilt_shape : (after (standing .txfilt (cfgRegs 2 0 2) [one, neg] [half, one, half])).map outWords =
    some [0x01000000#32, 0x00000000#32, 0xFF000000#32, 0xFF800000#32] := by decide +kernel

/-- V31: RXMATCH. -/
theorem test_rxmatch : (after (standing .rxmatch (cfgRegs 0 0 2) [one, 0#32, neg, 0xFF800000#32] [quarter, one, half])).map
    outWords = some [0x01000000#32, 0xFFC00000#32, 0xFEC00000#32, 0xFF400000#32] := by decide +kernel

/-- V32: RXMATCH saturates. -/
theorem test_rxmatch_saturates : (after (standing .rxmatch (cfgRegs 0 0 1) [0x64000000#32, 0x64000000#32] [one, one])).map
    (fun t => (outWords t, t.status.toWord)) = some ([0x7FFFFFFF#32, 0x64000000#32], 0x0000000A#32) := by decide +kernel

/-- V33: RXSMOOTH. -/
theorem test_rxsmooth : (after (standing .rxsmooth (cfgRegs 0 0 2) [one, 0#32, 0#32, neg] [])).map outWords =
    some [0x01000000#32, 0x00333333#32, 0x000A3D71#32, 0xFF353F7D#32] := by decide +kernel

/-- V35: RXMAVG. -/
theorem test_rxmavg : (after (standing .rxmavg (cfgRegs 0 0 4) [one, one, one, one, neg, neg, neg, neg] [])).map outWords =
    some [one, one, one, 0x00555555#32, 0xFFAAAAAB#32, neg, neg, neg] := by decide +kernel

/-- V36: RXMAVG truncates toward zero. -/
theorem test_rxmavg_truncates : (after (standing .rxmavg (cfgRegs 0 0 4)
    [3#32, 4#32, 0xFFFFFFF8#32, 1#32, 1#32, 1#32, 1#32, 1#32] [])).map (fun t => (outWords t).take 4) =
    some [3#32, 0#32, 0xFFFFFFFF#32, 0xFFFFFFFE#32] := by decide +kernel

/-- V37: RXFILT smooths under AMI. -/
theorem test_rxfilt_ami : (after (standing .rxfilt (cfgRegs 0 2 4) [one, one, one, one, neg, neg, neg, neg] [])).map
    (fun t => (List.range 8).map t.y) =
    some [16777216, 16777216, 16777216, 16777216, -10066330, -15435039, -16508781, -16723529] := by decide +kernel

/-- V38: RXFILT on a short input. -/
theorem test_rxfilt_short : (after (standing .rxfilt (cfgRegs 1 0 4) [one, half] [one])).map
    (fun t => (outWords t, t.status.toWord)) = some ([one, half], 0x00000022#32) := by decide +kernel

/-- The X of V40: q(0.5), q(1.0), q(0.6), q(0.9), q(0.7), q(1.0), q(-0.4), q(-1.0), q(-0.5), q(-0.9), q(-0.6), q(-1.0). -/
def eyeInput : List Word :=
  [0x00800000#32, 0x01000000#32, 0x0099999A#32, 0x00E66666#32, 0x00B33333#32, 0x01000000#32, 0xFF99999A#32, 0xFF000000#32,
   0xFF800000#32, 0xFF19999A#32, 0xFF666666#32, 0xFF000000#32]

/-- V40: EYESRCH. -/
theorem test_eyesrch : (after (standing .eyesrch (cfgRegs 0 0 2) eyeInput [])).map
    (fun t => (t.bestOff, t.regs.eyeOpen, t.regs.eyeMinHigh, t.regs.eyeMaxLow, t.regs.eyeStat.toWord)) =
    some (1, 0x01CCCCCC#32, 0x00E66666#32, 0xFF19999A#32, 0x00020007#32) := by decide +kernel

/-- V42: EYESRCH without a valid centre, SPS = 4. -/
theorem test_eyesrch_default : (after (standing .eyesrch (cfgRegs 0 0 4) [one, neg, one, neg, one, neg, one, neg] [])).map
    (fun t => (t.bestOff, t.regs.eyeOpen, t.regs.eyeStat.toWord)) = some (2, 0#32, 0#32) := by decide +kernel

/-- V41: DECIM at offset 1. -/
theorem test_decim : (after (standing .decim { cfgRegs 0 0 2 with bestOff := 1#7 } eyeInput [])).map outWords =
    some [0x01000000#32, 0x00E66666#32, 0x01000000#32, 0xFF000000#32, 0xFF19999A#32, 0xFF000000#32] := by decide +kernel

/-- V47: DECIM, a length that is no multiple of SPS. -/
theorem test_decim_ragged : (after (standing .decim { cfgRegs 0 0 4 with bestOff := 3#7 }
    [0#32, 1#32, 2#32, 3#32, 4#32, 5#32, 6#32, 7#32, 8#32, 9#32] [])).map outWords = some [3#32, 7#32] := by decide +kernel

/-- V40, V41: RECOVER. -/
theorem test_recover : (after (standing .recover (cfgRegs 0 0 2) eyeInput [])).map
    (fun t => (t.bestOff, t.ylen, t.yWord 1, t.yWord 4)) = some (1, 6, 0x00E66666#32, 0xFF19999A#32) := by decide +kernel

/-- V46: RECOVER on a short input. -/
theorem test_recover_short : (after (standing .recover (cfgRegs 0 0 4) [one, one, one] [])).map
    (fun t => (t.bestOff, outWords t, t.status.toWord)) = some (2, [one, one, one], 0x00000022#32) := by decide +kernel

/-- V48: EYEMET. -/
theorem test_eyemet : (after (standing .eyemet (cfgRegs 0 0 2) eyeInput [])).map
    (fun t => (t.regs.emBestOff, t.regs.emMaxOpen, t.regs.emMinOpen, t.regs.emMinHigh, t.regs.emMaxLow)) =
    some (1#7, 0x01CCCCCC#32, 0x00E66666#32, 0x00E66666#32, 0xFF19999A#32) := by decide +kernel

/-- V49: EYEMET takes 0 as low. -/
theorem test_eyemet_zero : (after (standing .eyemet (cfgRegs 0 0 1) [half, 0#32, 0xFF800000#32] [])).map
    (fun t => (t.regs.emMaxOpen, t.regs.emMaxLow)) = some (0x00800000#32, 0#32) := by decide +kernel

/-- V52: THRESH under AMI. -/
theorem test_thresh : (after (standing .thresh (cfgRegs 0 2 0)
    [0x00CCCCCD#32, 0#32, 0xFF333333#32, 0x0019999A#32, 0x00B33333#32, 0xFFF33333#32] [])).map
    (fun t => (t.regs.thresh, t.regs.centLo, t.regs.centHi, t.regs.kmStat.toWord)) =
    some (0x00688888#32, 0x000CCCCD#32, 0x00C44444#32, 0x00000102#32) := by decide +kernel

/-- V53: THRESH on (-2, -1, -1): an empty cluster, a mean that truncates, a midpoint that floors. -/
theorem test_thresh_corner : (after (standing .thresh (cfgRegs 0 0 0) [0xFFFFFFFE#32, 0xFFFFFFFF#32, 0xFFFFFFFF#32] [])).map
    (fun t => (t.thresh, t.regs.centLo.toInt, t.regs.centHi.toInt, t.regs.kmStat.toWord)) =
    some (-2, -2, -1, 0x00000101#32) := by decide +kernel

/-- V54: DECIDE, MANCHESTER, eleven symbols. -/
theorem test_decide : (after (standing .decideBits (cfgRegs 0 1 0)
    [one, neg, neg, one, one, one, neg, neg, neg, one, one] [])).map outBits =
    some [true, false, false, false, false, true] := by decide +kernel

/-- V53: DECIDE: equal to the threshold is not above it. -/
theorem test_decide_equal : (after (standing .decideBits { cfgRegs 0 0 0 with thresh := half } [half, half, half] [])).map
    outBits = some [false, false, false] := by decide +kernel

/-- V55: DECODE. -/
theorem test_decode : (after (standing .decodeBits (cfgRegs 0 0 0)
    [0x00E66666#32, 0x0119999A#32, 0xFF333333#32, 0xFECCCCCD#32, one, neg] [])).map (fun t => (t.thresh, outBits t)) =
    some (0, [true, true, false, false, true, false]) := by decide +kernel

/-- V56: BRESIZE pads with 0. -/
theorem test_bresize_pads : (after { standing .bresize { cfgRegs 0 0 0 with blen := 6#13, tlen := 8#13 } [] [] with
    bits := memOfBits [true, false, false, false, false, true] 3 }).map outBits =
    some [true, false, false, false, false, true, false, false] := by decide +kernel

/-- V56: BRESIZE truncates. -/
theorem test_bresize_truncates : (after { standing .bresize { cfgRegs 0 0 0 with blen := 6#13, tlen := 4#13 } [] [] with
    bits := memOfBits [true, false, false, false, false, true] 3 }).map outBits =
    some [true, false, false, false] := by decide +kernel

/-! ### Primitives and the bus -/

/-- V1. -/
theorem test_rnd : rnd 8388607 = 0 ∧ rnd 8388608 = 1 ∧ rnd (-8388608) = 0 ∧ rnd (-8388609) = -1 := by decide
/-- V2, each side of both bounds. -/
theorem test_sat : sat 2147483647 = 2147483647 ∧ sat 2147483648 = 2147483647 ∧ sat (-2147483648) = -2147483648 ∧
    sat (-2147483649) = -2147483648 := by decide
/-- V3. -/
theorem test_tdiv : tdiv 7 2 = 3 ∧ tdiv (-7) 2 = -3 ∧ tdiv (-1) 3 = 0 ∧ tdiv (-16777216) 3 = -5592405 := by decide
/-- V4. -/
theorem test_sabs : sabs 5 = 5 ∧ sabs (-5) = 5 ∧ sabs (-2147483647) = 2147483647 ∧ sabs (-2147483648) = 2147483647 := by
  decide

/-- V11: SPS and CFG keep their implemented bits. -/
theorem test_write_masks :
    (after (idle (cfgRegs 0 0 0) [wr .sps 0xFFFFFFFF#32])).map (·.readReg .sps) = some 0x0000007F#32 ∧
    (after (idle (cfgRegs 0 0 0) [wr .cfg 0xFFFFFFFF#32])).map (·.readReg .cfg) = some 0x00000033#32 := by decide +kernel

/-- V12: a misaligned write and a byte write are bus errors and change nothing. -/
theorem test_bus_errors :
    (after (idle (cfgRegs 0 0 4) [memWrite 0x4002 1#32])).map (fun t => (t.regs, t.status, t.buf0.cells)) =
      some (cfgRegs 0 0 4, State.reset.status, []) ∧
    (after (idle (cfgRegs 0 0 4) [.bus { we := true, addr := 0x0014#16, size := 0#2, wdata := 5#32 }])).map (·.sps) =
      some 4 := by decide +kernel

/-- V13: a word written to X reads back, byte 0 of its four at the lowest address (20_memory.md R76). -/
theorem test_window : (after (idle (cfgRegs 0 0 0) [wrX 3 0x11223344#32])).map
    (fun t => (t.xWord 3, t.buf0.byte 12, t.buf0.byte 15)) = some (0x11223344#32, 0x44#8, 0x11#8) := by decide +kernel

/-- V14: writing 1 to SAT of 0x5A leaves 0x52. -/
theorem test_status_clear :
    (after { idle (cfgRegs 0 0 0) [wr .status 0x00000008#32] with
      status := { State.reset.status with done := true, sat := true, ebusy := true, bank := true } }).map
      (·.status.toWord) = some 0x00000052#32 := by decide +kernel

/-! ### Witnesses: a state that meets the hypotheses of each statement -/

/-- Registers under which every command is accepted: FKIND = RC, NRZ, SPS = 2. -/
def allRegs : Regs := { cfgRegs 1 0 2 with bestOff := 1#7, tlen := 3#13 }

/-- Command `i` stands accepted over four samples and three taps. -/
def ready (i : Instr) : State := standing i allRegs [one, half, neg, one] [half, one, half]

/-- Any command can stand accepted: the hypothesis of every result statement. -/
theorem witness_Accepted (i : Instr) : Accepted i (ready i) := ⟨rfl, by cases i <;> decide⟩

/-- The state in which `i` is about to be issued and accepted. -/
def issuing (i : Instr) (rest : List Event) : State :=
  { ready i with status := State.reset.status, opLatch := none, events := .bus (cmdWrite (encode i)) :: rest }

theorem witness_issuing (i : Instr) (rest : List Event) : (issuing i rest).status.busy = false ∧
    (issuing i rest).status.err = false ∧ (issuing i rest).rst = false ∧ acceptanceCheck i (issuing i rest) = none :=
  ⟨rfl, rfl, rfl, (acceptanceCheck_congr i (s := ready i) (t := issuing i rest) rfl).trans (witness_Accepted i).2⟩

theorem witness_TdivTruncatesTowardZero : (0 : Int) < 1 ∧ (0 : Int) ≤ 0 ∧ (-1 : Int) < 0 ∧ ([7, -7] : List Int) ≠ [] ∧
    ∀ v ∈ ([7, -7] : List Int), -7 ≤ v ∧ v ≤ 7 := by decide

/-- An accepted ternary command over X[0] = MINW. -/
def minAbs (i : Instr) : State := standing i (cfgRegs 0 2 0) [0x80000000#32] []

theorem witness_SabsSaturates (i : Instr) (h : i = .thresh ∨ i = .decideBits ∨ i = .decodeBits) :
    Accepted i (minAbs i) ∧ AbsSaturation (minAbs i) := by
  rcases h with rfl | rfl | rfl <;> exact ⟨⟨rfl, by decide⟩, .inl rfl, 0, by decide, by decide⟩

theorem witness_StepRunsTheDecodedCommand (i : Instr) :
    ((issuing i []).events = .bus (cmdWrite (encode i)) :: [] ∧ (issuing i []).rst = false ∧
      (issuing i []).status.busy = false ∧ decode (encode i) = some i ∧ i.wellFormed = true) ∧
    ((ready i).events = [] ∧ (ready i).rst = false ∧ (ready i).status.busy = true ∧
      (ready i).opLatch = some (opField (encode i)) ∧ decodeOp (opField (encode i)) = some i) :=
  ⟨⟨rfl, rfl, rfl, by cases i <;> rfl, rfl⟩, rfl, rfl, rfl, rfl, by cases i <;> rfl⟩

theorem witness_AcceptThenComplete (i : Instr) : acceptanceCheck i (issuing i [.engine]) = none ∧
    (issuing i [.engine]).events = .bus (cmdWrite (encode i)) :: .engine :: [] := ⟨by cases i <;> decide, rfl⟩

/-- V18: the registers of the four TXSHAPE cases. -/
def shapeRegs (sps : BitVec 7) (xlen : BitVec 13) (clen : BitVec 9) : Regs := { cfgRegs 0 0 sps with xlen, clen }

/-- R62, each outcome at a boundary: BUSY, ERR, an illegal word, SPS = 0 and 65, N*S = 4100, CLEN = 0, CLEN = 386,
accepted at N*S = 4096 and CLEN = 385. -/
theorem witness_CommandIssueFollowsItsOrder :
    (ready .nop).status.busy = true ∧ IllegalWord 0x00000018#32 ∧ IllegalWord 0x00000112#32 ∧
    acceptanceCheck .txshape (idle (shapeRegs 0 5000 0) []) = some .badCfg ∧
    acceptanceCheck .txshape (idle (shapeRegs 65 1 1) []) = some .badCfg ∧
    acceptanceCheck .txshape (idle (shapeRegs 4 1025 0) []) = some .badLen ∧
    acceptanceCheck .txshape (idle (shapeRegs 4 1024 0) []) = some .noKernel ∧
    acceptanceCheck .txshape (idle (shapeRegs 4 1024 386) []) = some .noKernel ∧
    acceptanceCheck .txshape (idle (shapeRegs 4 1024 385) []) = none ∧
    acceptanceCheck .txshape (idle (shapeRegs 64 64 1) []) = none := by unfold IllegalWord; decide

/-- A state with ERR = 1 and one event. -/
def locked (e : Event) : State :=
  { idle (cfgRegs 0 0 0) [e] with status := { State.reset.status with err := true, errcode := 2#4 } }

theorem witness_ErrorLocksUntilAcknowledged :
    (locked (wr .cmd 0#32)).status.err = true ∧ (locked (wr .cmd 0#32)).rst = false ∧
    (locked (wr .cmd 0#32)).status.busy = false ∧ wr .cmd 0#32 = .bus (cmdWrite 0#32) ∧
    (0x00000004#32 : Word).getLsbD 2 = true ∧ (locked clrErr).events = [wr .status 0x00000004#32] ∧
    BusReq.target { we := true, addr := 0x0014#16, size := 2#2, wdata := 4#32 } = some (.reg .sps) := by decide

theorem witness_BusyHostSteps : (ready .nop).status.busy = true ∧ (ready .nop).rst = false ∧
    BusReq.target { we := false, addr := 0x0074#16, size := 2#2, wdata := 0#32 } = some (.reg .errInfo) ∧
    (ready .nop).opLatch = some ((encode .nop).extractLsb' 0 8) := by decide

theorem witness_ResetStep : { ready .kgen with events := [.rst true] }.events = .rst true :: [] ∧
    { State.reset with rst := true, events := [rd .id] }.rst = true ∧
    { State.reset with rst := true, events := [.rst false] }.events = .rst false :: [] := ⟨rfl, rfl, rfl⟩

/-- R71, R73: both ends of every unmapped range are bus errors, both ends of every window are not. -/
theorem witness_BusErrorsChangeNothing :
    ([0x0078, 0x0FFC, 0x1604, 0x1FFC, 0x2200, 0x3FFC, 0xC000, 0xFFFC].all fun a => (targetAt a).isNone) = true ∧
    ([0x0000, 0x0074, 0x1000, 0x1600, 0x2000, 0x21FC, 0x4000, 0x7FFC, 0x8000, 0xBFFC].all fun a =>
      (targetAt a).isSome) = true ∧
    Unmapped 0x0078 ∧ Unmapped 0x0FFC ∧ Unmapped 0x1604 ∧ Unmapped 0x1FFC ∧ Unmapped 0x2200 ∧ Unmapped 0x3FFC ∧
    Unmapped 0xC000 ∧ Unmapped 0xFFFC ∧ ¬Unmapped 0x0074 ∧ ¬Unmapped 0x1600 ∧ ¬Unmapped 0x21FC ∧ ¬Unmapped 0x7FFC ∧
    ¬Unmapped 0xBFFC := by
  refine ⟨by decide, by decide, ?_⟩
  unfold Unmapped
  omega

/-- An idle state whose one event is `e`, at the ends of the windows: the hypotheses of the bus statements. -/
theorem witness_idle_bus (e : Event) : (idle allRegs [e]).rst = false ∧ (idle allRegs [e]).status.busy = false ∧
    (idle allRegs [e]).events = [e] ∧ (4095 : Nat) < 4096 ∧ (384 : Nat) < 385 ∧ (127 : Nat) < 128 :=
  ⟨rfl, rfl, rfl, by decide, by decide, by decide⟩

theorem witness_RegisterWrites : Reg.sps ≠ .cmd ∧ Reg.sps ≠ .status ∧ writeMask .sps = some 0x0000007F#32 ∧
    writeMask .ylen = none := by decide

theorem witness_IdealKernel : (1 : Nat) ≤ 1 ∧ (64 : Nat) ≤ 64 ∧ (16777216 : Nat) ≤ 16777216 ∧ (6 : Nat) ≤ 6 * 1 := by decide

/-- Some TAP_TOL bounds the generator, whatever it is: the premise of KgenLoadsTheKernel can be met. -/
theorem witness_KgenLoadsTheKernel : Accepted .kgen (ready .kgen) ∧ TapGenAccurate (2 ^ 32) :=
  ⟨witness_Accepted .kgen, tapGenAccurate_large⟩

/-- FKIND = 0 and 2 beside the 1 of `ready`. -/
theorem witness_TxfiltSelectsByKind : Accepted .txfilt (standing .txfilt (cfgRegs 0 0 2) [one] []) ∧
    (standing .txfilt (cfgRegs 0 0 2) [one] []).fkind = 0 ∧
    Accepted .txfilt (standing .txfilt (cfgRegs 2 0 2) [one] [one]) ∧
    (standing .txfilt (cfgRegs 2 0 2) [one] [one]).fkind = 2 ∧ (ready .txfilt).fkind = 1 :=
  ⟨⟨rfl, by decide⟩, by decide, ⟨rfl, by decide⟩, by decide, by decide⟩

/-- One sample, two a symbol. -/
theorem witness_ReceptionShort (i : Instr) (h : i = .rxfilt ∨ i = .rxmatch ∨ i = .rxsmooth ∨ i = .rxmavg) :
    Accepted i (standing i allRegs [one] [one]) ∧
      (standing i allRegs [one] [one]).xlen < (standing i allRegs [one] [one]).sps := by
  rcases h with rfl | rfl | rfl | rfl <;> exact ⟨⟨rfl, by decide⟩, by decide⟩

/-- Exactly one symbol period is not short. -/
theorem witness_ReceptionLong (i : Instr) (h : i = .rxfilt ∨ i = .rxmatch ∨ i = .rxsmooth ∨ i = .rxmavg) :
    Accepted i (standing i allRegs [one, neg] [one]) ∧
      (standing i allRegs [one, neg] [one]).sps ≤ (standing i allRegs [one, neg] [one]).xlen := by
  rcases h with rfl | rfl | rfl | rfl <;> exact ⟨⟨rfl, by decide⟩, by decide⟩

/-- SMOOTH_A at both ends. -/
theorem witness_RxsmoothEnds :
    Accepted .rxsmooth (standing .rxsmooth { allRegs with smoothA := 0x01000000#32 } [one, neg] []) ∧
    (standing .rxsmooth { allRegs with smoothA := 0x01000000#32 } [one, neg] []).smoothA = 16777216 ∧
    Accepted .rxsmooth (standing .rxsmooth { allRegs with smoothA := 0#32 } [one, neg] []) ∧
    (standing .rxsmooth { allRegs with smoothA := 0#32 } [one, neg] []).smoothA = 0 :=
  ⟨⟨rfl, by decide⟩, by decide, ⟨rfl, by decide⟩, by decide⟩

/-- ENC = AMI and HDB3; NRZ with FKIND = 0, 1 and 2. -/
theorem witness_RxfiltSelects (enc : BitVec 2) (h : enc = 2#2 ∨ enc = 3#2) :
    Accepted .rxfilt (standing .rxfilt (cfgRegs 1 enc 2) [one, neg] []) ∧
    Accepted .rxfilt (standing .rxfilt (cfgRegs 0 0 2) [one, neg] []) ∧
    Accepted .rxfilt (standing .rxfilt (cfgRegs 1 0 2) [one, neg] [one]) ∧
    Accepted .rxfilt (standing .rxfilt (cfgRegs 2 1 2) [one, neg] [one]) := by
  rcases h with rfl | rfl <;> exact ⟨⟨rfl, by decide⟩, ⟨rfl, by decide⟩, ⟨rfl, by decide⟩, ⟨rfl, by decide⟩⟩

/-- DECIM on a short input and on whole periods. -/
theorem witness_Decim : Accepted .decim (standing .decim allRegs [one] []) ∧
    (standing .decim allRegs [one] []).xlen < (standing .decim allRegs [one] []).sps ∧
    Accepted .decim (standing .decim allRegs [one, neg] []) ∧
    (standing .decim allRegs [one, neg] []).sps ≤ (standing .decim allRegs [one, neg] []).xlen :=
  ⟨⟨rfl, by decide⟩, by decide, ⟨rfl, by decide⟩, by decide⟩

/-- The least and the greatest of the data of one sample, and an empty input. -/
theorem witness_ThreshRunsTwoMeans :
    Accepted .thresh (standing .thresh (cfgRegs 0 0 0) [one] []) ∧
    IsLeast { v | ∃ i, i < (standing .thresh (cfgRegs 0 0 0) [one] []).xlen ∧
      decisionValue (standing .thresh (cfgRegs 0 0 0) [one] []) i = v } 16777216 ∧
    IsGreatest { v | ∃ i, i < (standing .thresh (cfgRegs 0 0 0) [one] []).xlen ∧
      decisionValue (standing .thresh (cfgRegs 0 0 0) [one] []) i = v } 16777216 ∧
    Accepted .thresh (standing .thresh (cfgRegs 0 0 0) [] []) ∧ (standing .thresh (cfgRegs 0 0 0) [] []).xlen = 0 := by
  have v0 : decisionValue (standing .thresh (cfgRegs 0 0 0) [one] []) 0 = 16777216 := by unfold decisionValue; decide
  have all : ∀ v, (∃ i, i < (standing .thresh (cfgRegs 0 0 0) [one] []).xlen ∧
      decisionValue (standing .thresh (cfgRegs 0 0 0) [one] []) i = v) → v = 16777216 := by
    rintro v ⟨i, hi, rfl⟩
    have hl : (standing .thresh (cfgRegs 0 0 0) [one] []).xlen = 1 := by decide
    obtain rfl : i = 0 := by omega
    exact v0
  exact ⟨⟨rfl, by decide⟩, ⟨⟨0, by decide, v0⟩, fun v hv => (all v hv).ge⟩, ⟨⟨0, by decide, v0⟩, fun v hv => (all v hv).le⟩,
    ⟨rfl, by decide⟩, by decide⟩

/-- The threshold commands over one sample, bounded by its own value. -/
theorem witness_ThresholdStays (i : Instr) (h : i = .thresh ∨ i = .decodeBits) :
    Accepted i (standing i (cfgRegs 0 0 0) [one] []) ∧ 0 < (standing i (cfgRegs 0 0 0) [one] []).xlen := by
  rcases h with rfl | rfl <;> exact ⟨⟨rfl, by decide⟩, by decide⟩

/-- ENC = NRZ and MANCHESTER. -/
theorem witness_Decide : Accepted .decideBits (standing .decideBits (cfgRegs 0 0 0) [one] []) ∧
    (standing .decideBits (cfgRegs 0 0 0) [one] []).enc ≠ 1 ∧
    Accepted .decideBits (standing .decideBits (cfgRegs 0 1 0) [one] []) ∧
    (standing .decideBits (cfgRegs 0 1 0) [one] []).enc = 1 :=
  ⟨⟨rfl, by decide⟩, by decide, ⟨rfl, by decide⟩, by decide⟩

theorem witness_Hdb3 : (standing .thresh (cfgRegs 0 3 0) [one] []).regs.cfg.enc = 3#2 := rfl

/-- A memory that agrees with X below XLEN and differs above. -/
theorem witness_CommandsReadOnlyValidWords (i : Instr) :
    (∀ j, j < (standing i allRegs [one] [half]).xlen →
      (memOfWords [one, neg] 9).word (4 * j) = (standing i allRegs [one] [half]).source.word (4 * j)) ∧
    (∀ k, k < (standing i allRegs [one] [half]).clen →
      (memOfWords [half, neg] 9).word (4 * k) = (standing i allRegs [one] [half]).coef.word (4 * k)) := by
  have hx : (standing i allRegs [one] [half]).xlen = 1 := rfl
  have hc : (standing i allRegs [one] [half]).clen = 1 := rfl
  refine ⟨fun j hj => ?_, fun k hk => ?_⟩
  · obtain rfl : j = 0 := by omega
    rfl
  · obtain rfl : k = 0 := by omega
    rfl

/-- Every cause of a flag's change occurs (10_state.md R33). -/
theorem witness_EveryFlagFollowsItsTable (i : Instr) :
    Accepting (issuing i []) ∧ Completing (ready i) ∧ CompletingOneOf [i] (ready i) ∧
    Resetting { ready i with events := [.rst true] } ∧
    Refusing (idle (cfgRegs 0 0 0) [wr .cmd 0x00000018#32]) ∧
    Clearing 2 (locked clrErr) ∧ Clearing 3 (idle (cfgRegs 0 0 0) [clrAll]) ∧
    WritingWhileBusy { ready i with events := [wr .sps 9#32] } := by
  have at_cmd (w : Word) : BusReq.target { we := true, addr := BitVec.ofNat 16 Reg.cmd.offset, size := 2#2, wdata := w } =
      some (.reg .cmd) := regTarget .cmd true w
  refine ⟨⟨rfl, rfl, i, ⟨rfl, _, _, rfl, rfl, cmdWrite_target _, rfl⟩, (witness_issuing i []).2.2.2⟩, ⟨rfl, rfl, .inl rfl⟩,
    ⟨⟨rfl, rfl, .inl rfl⟩, opField (encode i), i, rfl, by cases i <;> rfl, List.mem_singleton.mpr rfl⟩, ⟨[], rfl⟩,
    ⟨rfl, rfl, 0x00000018#32, ⟨rfl, _, _, rfl, rfl, at_cmd _, rfl⟩, fun j hj => ?_⟩,
    ⟨rfl, 0x00000004#32, ⟨rfl, _, _, rfl, rfl, regTarget .status true _, rfl⟩, by decide⟩,
    ⟨rfl, 0x0000001E#32, ⟨rfl, _, _, rfl, rfl, regTarget .status true _, rfl⟩, by decide⟩,
    ⟨rfl, .reg .sps, 9#32, rfl, _, _, rfl, rfl, regTarget .sps true _, rfl⟩⟩
  cases j <;> exact absurd hj (by decide)

/-- A sound state in which a command stands accepted. -/
theorem witness_Sound_busy : State.Sound (standing .nop allRegs [] []) := by
  refine ⟨by decide, by decide, fun h => (by cases h), fun _ => ⟨.nop, rfl, by decide, rfl, rfl, rfl⟩, fun h => (by cases h),
    List.Pairwise.nil, List.Pairwise.nil, List.Pairwise.nil, List.Pairwise.nil, ?_, ?_, ?_, ?_, by decide⟩ <;>
  exact fun p hp => by cases hp

/-- The reset state with one event: a step from a sound state, its registers coherent. -/
theorem witness_Sound : State.Sound { State.reset with events := [rd .id] } ∧
    State.EyeCoherent { State.reset with events := [rd .id] } ∧
    State.MetricsCoherent { State.reset with events := [rd .id] } ∧
    State.CentresSorted { State.reset with events := [rd .id] } := by
  refine ⟨⟨by decide, by decide, fun _ => rfl, fun h => (by cases h), fun _ => rfl, List.Pairwise.nil, List.Pairwise.nil,
    List.Pairwise.nil, List.Pairwise.nil, ?_, ?_, ?_, ?_, by decide⟩, ⟨by decide, by decide, by decide, by decide, by decide⟩,
    ⟨by decide, by decide, by decide, by decide⟩, ?_⟩
  · exact fun p hp => by cases hp
  · exact fun p hp => by cases hp
  · exact fun p hp => by cases hp
  · exact fun p hp => by cases hp
  · unfold State.CentresSorted; decide

end Sys2Proof.Tests
end

/-! ### The arithmetic statements (00_scope.md R9, R12, R13) -/

section

namespace Sys2Proof.Machine

/-- The model's integer division is the rational floor of the rules. -/
theorem ediv_eq_floor (s : Int) {n : Int} (hn : 0 ≤ n) : s / n = ⌊(s : ℚ) / n⌋ := by
  rw [Int.floor_div_cast_of_nonneg hn, Int.floor_intCast]

/-! #### `rnd` -/

theorem rnd_eq_floor (a : Int) : rnd a = ⌊((a : ℚ) + 2 ^ 23) / 2 ^ 24⌋ := by
  have h : ((a : ℚ) + 2 ^ 23) / 2 ^ 24 = ((a + 8388608 : Int) : ℚ) / (16777216 : Int) := by norm_num
  rw [h, ← ediv_eq_floor _ (by decide), rnd]

/-- Settles O1: the floor of R9 is the model's integer division; ONE is divided out exactly. -/
theorem rndIsNearestTiesUp : Obligations.RndIsNearestTiesUp :=
  ⟨rnd_eq_floor, rnd_one_mul, by decide, by decide, by decide, by decide, by decide⟩

/-! #### `tdiv` -/

theorem tdiv_of_nonneg {s : Int} (h : 0 ≤ s) (n : Int) : tdiv s n = s / n := if_pos h

theorem tdiv_of_neg {s : Int} (h : s < 0) (n : Int) : tdiv s n = -(-s / n) := if_neg (by omega)

theorem tdiv_neg (s n : Int) : tdiv (-s) n = -tdiv s n := by
  rcases lt_trichotomy s 0 with h | rfl | h
  · rw [tdiv_of_nonneg (by omega), tdiv_of_neg h, Int.neg_neg]
  · simp [tdiv]
  · rw [tdiv_of_neg (by omega), tdiv_of_nonneg h.le, Int.neg_neg]

/-- The sum of a list lies between its length times the bounds of its elements, so its mean lies between the bounds. -/
theorem tdiv_sum_between {l : List Int} {lo hi : Int} (hne : l ≠ []) (h : ∀ v ∈ l, lo ≤ v ∧ v ≤ hi) :
    lo ≤ tdiv l.sum l.length ∧ tdiv l.sum l.length ≤ hi := by
  have hlo : (l.length : Int) * lo ≤ l.sum := by simpa using l.card_nsmul_le_sum lo fun v hv => (h v hv).1
  have hhi : l.sum ≤ (l.length : Int) * hi := by simpa using l.sum_le_card_nsmul hi fun v hv => (h v hv).2
  exact tdiv_between (by simpa using List.length_pos_iff.mpr hne) hlo hhi

/-- Settles O3: by the sign of the dividend, and for the mean by the bounds of the sum. -/
theorem tdivTruncatesTowardZero : Obligations.TdivTruncatesTowardZero := by
  refine ⟨fun s n hn => ⟨fun h => ?_, fun h => ?_⟩, fun s n _ => tdiv_neg s n, by decide,
    fun l lo hi => tdiv_sum_between⟩
  · rw [tdiv_of_nonneg h, ediv_eq_floor s hn.le]
  · rw [tdiv_of_neg h, ediv_eq_floor (-s) hn.le]

/-! #### `sabs` -/

theorem sabs_of_nonneg {x : Int} (h : 0 ≤ x) : sabs x = x := if_pos h

theorem sabs_minw : sabs Config.minw = Config.maxw := rfl

theorem sabs_of_neg {x : Int} (h1 : Config.minw < x) (h2 : x < 0) : sabs x = -x := by
  rw [sabs, if_neg (by omega), if_neg h1.ne']

/-- The three commands that evaluate sabs saturate where it does (45_decoder.md R161, R168, R169). -/
theorem effectOf_saturated_of_sabs {i : Instr} (h : i = .thresh ∨ i = .decideBits ∨ i = .decodeBits) (s : State) :
    (effectOf i s).saturated = s.absSaturates := by
  rcases h with rfl | rfl | rfl <;> rfl

/-- A completion whose effect saturates ends with SAT = 1 (00_scope.md R10; 10_state.md R30). -/
theorem exec_sat_of_saturated {i : Instr} {s : State} (hb : s.status.busy = true)
    (h : (effectOf i s).saturated = true) : ∃ t, exec i s = .next t ∧ t.status.sat = true :=
  ⟨_, exec_busy hb, by simp [h]⟩

/-- Settles O4: sabs by its three cases, and SAT from the effect's own report of an X[i] = MINW. -/
theorem sabsSaturates : Obligations.SabsSaturates := by
  refine ⟨fun x h1 h2 => ⟨sabs_of_nonneg, fun h => sabs_of_neg h.1 h.2, ?_, sabs_range h1 h2⟩,
    fun i s hi hacc hs => exec_sat_of_saturated hacc.1 ?_⟩
  · rintro rfl
    exact sabs_minw
  · rw [effectOf_saturated_of_sabs hi, absSaturates_iff]
    exact hs

end Sys2Proof.Machine

end

/-! ### Command issue, STATUS and the reset table (10_state.md R26, R62, R64) -/

section

namespace Sys2Proof.Machine

/-! #### The acceptance checks against the prose (60_exceptions.md R182 to R185) -/

@[simp] theorem badSps_iff (s : State) : s.badSps = true ↔ s.sps = 0 ∨ s.sps > 64 := by
  simp [State.badSps, Config.smax]

@[simp] theorem badXlen_iff (s : State) : s.badXlen = true ↔ s.xlen > 4096 := by simp [State.badXlen, Config.depth]

@[simp] theorem badUpsampledLen_iff (s : State) :
    s.badUpsampledLen = true ↔ s.xlen > 4096 ∨ s.xlen * s.sps > 4096 := by
  simp [State.badUpsampledLen, Config.depth]

@[simp] theorem badKernel_iff (s : State) : s.badKernel = true ↔ s.clen = 0 ∨ s.clen > 385 := by
  simp [State.badKernel, Config.lmax]

@[simp] theorem badSmooth_iff (s : State) : s.badSmooth = true ↔ s.smoothA > 0x01000000 := by
  simp [State.badSmooth, Config.one]

@[simp] theorem shapedKind_iff (s : State) : s.shapedKind = true ↔ s.fkind = 1 ∨ s.fkind = 2 := by
  simp [State.shapedKind]

theorem ternary_false_iff (s : State) : s.ternary = false ↔ ¬(s.enc = 2 ∨ s.enc = 3) := by
  rw [← ternary_iff, Bool.not_eq_true]

/-- The first of three conditions that holds is the one reported, the lowest code first (60_exceptions.md R184). -/
theorem firstError_iff {a b c : Bool} {badCfg badLen noKernel : Prop} (ha : a = true ↔ badCfg) (hb : b = true ↔ badLen)
    (hc : c = true ↔ noKernel) :
    (firstError a b c = some .badCfg ↔ badCfg) ∧ (firstError a b c = some .badLen ↔ ¬badCfg ∧ badLen) ∧
    (firstError a b c = some .noKernel ↔ ¬badCfg ∧ ¬badLen ∧ noKernel) ∧
    (firstError a b c = none ↔ ¬badCfg ∧ ¬badLen ∧ ¬noKernel) := by
  rw [← ha, ← hb, ← hc]
  cases a <;> cases b <;> cases c <;> simp [firstError]

/-- The checks of a command are the causes in the prose of R182, R183 and R185. -/
theorem checksAre_prose (i : Instr) : ChecksAre i (BadCfg i) (BadLen i) (NoKernel i) := by
  intro s
  cases i <;> simp only [acceptanceCheck, checkNop, checkXchg, checkKgen, checkTxfilt, checkTxhold, checkTxshape,
    checkRxfilt, checkRxmatch, checkRxsmooth, checkRxmavg, checkEyesrch, checkDecim, checkRecover, checkEyemet, checkThresh,
    checkDecide, checkDecode, checkBresize]
  all_goals
    refine firstError_iff ?_ ?_ ?_ <;>
      simp [BadCfg, BadLen, NoKernel, ReadsSps, ReadsX, ternary_iff, ternary_false_iff, Config.one, Config.bdepth]
  -- KGEN, TXFILT and RXFILT: the table names the causes in another order than the prose.
  all_goals tauto

/-! #### Command words -/

@[simp] theorem decode_encode (i : Instr) : decode (encode i) = some i := by cases i <;> rfl

/-- Only the eighteen OP values of R181 select a command. -/
theorem decodeOp_of_not_legal {op : BitVec 8} (h : op.toNat ∉ legalOpcodes.map BitVec.toNat) : decodeOp op = none := by
  unfold decodeOp
  split <;> simp_all [legalOpcodes]

theorem decode_of_illegal {w : Word} (h : IllegalWord w) : decode w = none := by
  have hi : (w.extractLsb' 8 24).toNat = w.toNat / 256 := by
    simp [BitVec.extractLsb'_toNat, Nat.shiftRight_eq_div_pow]; omega
  have lo : (w.extractLsb' 0 8).toNat = w.toNat % 256 := by simp
  unfold decode
  split
  · next hz =>
    have zero : w.toNat / 256 = 0 := by rw [← hi, hz]; rfl
    exact decodeOp_of_not_legal (lo ▸ h.resolve_left (not_not_intro zero))
  · rfl

/-! #### The step on a CMD write (10_state.md R62) -/

theorem answer_of_events {t : State} {e : Event} {rest : List Event} (h : t.events = e :: rest) (r : Reply) :
    t.answer r = { t with events := rest, reply := r } := by
  rw [State.answer, h, List.tail_cons]

section
variable {s : State} {w : Word} {rest : List Event} (he : s.events = .bus (cmdWrite w) :: rest) (hr : s.rst = false)
include he hr

theorem step_cmdWrite_busy (hb : s.status.busy = true) : step s = .next (s.dropWrite.answer .written) :=
  step_settle (nextAction_drop he hr (cmdWrite_target w) rfl hb)

/-- The word of a command, while idle, is that command's issue. -/
theorem step_cmdWrite_legal {i : Instr} (hb : s.status.busy = false) (hd : decode w = some i) :
    step s = .next (s.issue (encode i) (acceptanceCheck i s)) := by
  rw [step_run (nextAction_command he hr (cmdWrite_target w) rfl hb hd), exec_idle hb]

theorem step_cmdWrite_illegal (hb : s.status.busy = false) (hd : decode w = none) :
    step s = .next (s.issue w (some .illegalOp)) :=
  step_settle (nextAction_illegal he hr (cmdWrite_target w) rfl hb hd)

/-- While ERR = 1 a CMD write is dropped, whatever its word. -/
theorem step_cmdWrite_locked (hb : s.status.busy = false) (hl : s.status.err = true) :
    step s = .next (s.answer .written) := by
  cases hd : decode w with
  | none => rw [step_cmdWrite_illegal he hr hb hd, issue_locked _ _ hb hl]
  | some i => rw [step_cmdWrite_legal he hr hb hd, issue_locked _ _ hb hl]

end

/-- Settles O9: one case per outcome of R62; the cause of a refusal is the first check of the prose that holds. -/
theorem commandIssueFollowsItsOrder : Obligations.CommandIssueFollowsItsOrder := by
  intro s w rest he hr done refusedWith
  have refused (e : ErrCode) : (s.errorEntry e w).answer .written = refusedWith (errNumber e) :=
    answer_of_events (t := s.errorEntry e w) he _
  refine ⟨fun hb => ?busy, fun hb hl => ?locked, fun hb hl => ⟨fun hw => ?illegal, ?legal⟩⟩
  case busy => rw [step_cmdWrite_busy he hr hb, answer_of_events (t := s.dropWrite) he]; rfl
  case locked => rw [step_cmdWrite_locked he hr hb hl, answer_of_events he]
  case illegal =>
    rw [step_cmdWrite_illegal he hr hb (decode_of_illegal hw), issue_idle_error w _ hb hl, refused]; rfl
  case legal =>
    rintro i rfl
    obtain ⟨badCfg, badLen, noKernel, accepted⟩ := checksAre_prose i s
    rw [step_cmdWrite_legal he hr hb (decode_encode i)]
    refine ⟨fun h1 => ?_, fun h1 h2 => ?_, fun h1 h2 h3 => ?_, fun h1 h2 h3 => ?_⟩
    · rw [badCfg.mpr h1, issue_idle_error _ _ hb hl, refused]; rfl
    · rw [badLen.mpr ⟨h1, h2⟩, issue_idle_error _ _ hb hl, refused]; rfl
    · rw [noKernel.mpr ⟨h1, h2, h3⟩, issue_idle_error _ _ hb hl, refused]; rfl
    · rw [accepted.mpr ⟨h1, h2, h3⟩, issue_idle_ok _ hb hl, answer_of_events (t := s.accept (encode i)) he]; rfl

/-! #### STATUS -/

@[ext] theorem Status.ext {f g : Status} (busy : f.busy = g.busy) (done : f.done = g.done) (err : f.err = g.err)
    (sat : f.sat = g.sat) (ebusy : f.ebusy = g.ebusy) (short : f.short = g.short) (bank : f.bank = g.bank)
    (errcode : f.errcode = g.errcode) : f = g := by
  cases f; cases g; simp_all

theorem Status.writeOneToClear_eq (f : Status) (v : Word) : f.writeOneToClear v =
    { f with
      done := f.done && !v.getLsbD 1, err := f.err && !v.getLsbD 2, sat := f.sat && !v.getLsbD 3,
      ebusy := f.ebusy && !v.getLsbD 4, errcode := if v.getLsbD 2 then 0#4 else f.errcode } := by
  apply Status.ext <;> simp

/-- The bits of STATUS: seven flags, bit 7 reserved, ERRCODE from bit 8 on (10_state.md R26). -/
theorem Status.toWord_getLsbD (f : Status) (n : Nat) :
    f.toWord.getLsbD n =
      if n < 8 then [f.busy, f.done, f.err, f.sat, f.ebusy, f.short, f.bank].getD n false
      else f.errcode.getLsbD (n - 8) := by
  unfold Status.toWord
  iterate 9 rw [BitVec.getLsbD_append]
  rcases Nat.lt_or_ge n 8 with h | h
  · interval_cases n <;> simp [flagBit]
  · rw [if_neg (Nat.not_lt.mpr h)]
    iterate 8 rw [if_neg (by omega)]
    split
    · rfl
    · rw [BitVec.getLsbD_of_ge f.errcode _ (by omega), BitVec.getLsbD_zero]

theorem Status.toWord_errcode (f : Status) : f.toWord.extractLsb' 8 4 = f.errcode := by
  ext k hk
  simp [Status.toWord_getLsbD, hk]

theorem Status.toWord_reserved (f : Status) {n : Nat} (h : 12 ≤ n) : f.toWord.getLsbD n = false := by
  rw [Status.toWord_getLsbD, if_neg (by omega), BitVec.getLsbD_of_ge _ _ (by omega)]

theorem State.writeTarget_status (s : State) (v : Word) : s.writeTarget (.reg .status) v = s.writeStatus v := rfl

/-- A read that is valid while BUSY = 1 has no effect at any time (10_state.md R63; 20_memory.md R74). -/
theorem busRead_of_valid {s : State} {t : Target} (h : t.validWhileBusy = true) :
    s.busRead t = s.answer (.read (s.readTarget t)) := by
  simp [State.busRead, h]

/-- Settles O22: the layout bit by bit, and the write and the read of STATUS by the step on each transaction. -/
theorem statusWriteOneToClear : Obligations.StatusWriteOneToClear := by
  refine ⟨fun f => ⟨f.toWord_getLsbD 0, f.toWord_getLsbD 1, f.toWord_getLsbD 2, f.toWord_getLsbD 3, f.toWord_getLsbD 4,
      f.toWord_getLsbD 5, f.toWord_getLsbD 6, f.toWord_getLsbD 7, f.toWord_errcode, fun _ => f.toWord_reserved⟩,
    fun s v rest hr he => ⟨fun hb => ?_, fun hb => ?_⟩, fun s rest hr he => ?_⟩
  · rw [step_settle (nextAction_write he hr (regTarget .status true v) rfl hb (by decide)),
      State.writeTarget_status, answer_of_events (t := s.writeStatus _) he, State.writeStatus_status,
      Status.writeOneToClear_eq]
    rfl
  · rw [step_settle (nextAction_drop he hr (regTarget .status true v) rfl hb), answer_of_events (t := s.dropWrite) he]
    rfl
  · rw [step_settle (nextAction_read he hr (regTarget .status false 0#32) rfl), busRead_of_valid rfl, answer_of_events he]
    rfl

/-! #### Reset -/

/-- The reset column of the register map (10_state.md R23, R64). -/
def resetValue : Reg → Word
  | .id => 0x50534631#32
  | .smoothA => 0x00CCCCCD#32
  | .kmIter => 0x0000000A#32
  | .kmEps => 0x00000011#32
  | _ => 0#32

theorem readReg_reset (g : Reg) : State.reset.readReg g = resetValue g := by cases g <;> rfl

theorem resetValue_of_not_mem {g : Reg} (h : g ∉ [Reg.id, .smoothA, .kmIter, .kmEps]) : resetValue g = 0#32 := by
  unfold resetValue
  split <;> simp at h ⊢

/-- Settles O16: the registers by the reset column, the rest by the fields of the reset state. -/
theorem resetRegisterTable : Obligations.ResetRegisterTable :=
  ⟨readReg_reset .id, readReg_reset .smoothA, readReg_reset .kmIter, readReg_reset .kmEps,
    fun g hg => (readReg_reset g).trans (resetValue_of_not_mem hg), rfl, rfl, rfl, rfl, rfl, rfl⟩

end Sys2Proof.Machine

end

/-! ### The memory windows (20_memory.md R72, R74, R75) -/

section

namespace Sys2Proof.Machine

/-- While BUSY = 0 every read of a legal address returns the value it names (20_memory.md R74). -/
theorem busRead_of_idle {s : State} (hb : s.status.busy = false) (t : Target) :
    s.busRead t = s.answer (.read (s.readTarget t)) := by
  simp [State.busRead, hb]

@[simp] theorem State.readTarget_bitWord (s : State) (j : Nat) : s.readTarget (.bitWord j) = s.packedBits j := rfl

@[simp] theorem State.writeTarget_bitWord (s : State) (j : Nat) (v : Word) : s.writeTarget (.bitWord j) v = s := rfl

theorem State.packedBits_getLsbD (s : State) (j : Nat) {b : Nat} (hb : b < 32) :
    (s.packedBits j).getLsbD b = s.bBit (32 * j + b) := by
  rw [State.packedBits, BitVec.getLsbD_ofFnLE, dif_pos hb]

/-- Settles O19: the idle read answers the packed word, whose bits are those of B, and the idle write ends in the state it
found. -/
theorem bitWindowPacksThirtyTwoBits : Obligations.BitWindowPacksThirtyTwoBits := by
  intro s rest j hj hr hb
  refine ⟨fun he => ⟨s.packedBits j, ?_, fun b => s.packedBits_getLsbD j⟩, fun v he => ?_⟩
  · rw [step_settle (nextAction_read he hr (bitTarget hj false 0#32) rfl), busRead_of_idle hb, answer_of_events he,
      State.readTarget_bitWord]
  · rw [step_settle (nextAction_write he hr (bitTarget hj true v) rfl hb (by simp)), State.writeTarget_bitWord,
      answer_of_events he]

end Sys2Proof.Machine

end

/-! ### The opcode map (30_encoding.md R90 to R94) -/

section

namespace Sys2Proof.Machine

/-! #### The two fields of a command word -/

@[simp] theorem opField_toNat (w : Word) : (opField w).toNat = w.toNat % 256 := by simp [opField]

/-- With the ZERO field clear the latched byte alone selects the command (10_state.md R58). -/
theorem decode_of_zero {w : Word} (h : w.toNat / 256 = 0) : decode w = decodeOp (opField w) := by
  refine if_pos (BitVec.eq_of_toNat_eq ?_)
  simp [BitVec.extractLsb'_toNat, Nat.shiftRight_eq_div_pow, h]

theorem not_illegalWord_iff (w : Word) :
    ¬ IllegalWord w ↔ w.toNat / 256 = 0 ∧ w.toNat % 256 ∈ legalOpcodes.map BitVec.toNat := by
  rw [IllegalWord, not_or, not_not, not_not]

/-- A word that selects a command has a clear ZERO field and a listed opcode (R94). -/
theorem not_illegalWord_of_decode {w : Word} {i : Instr} (h : decode w = some i) : ¬ IllegalWord w :=
  fun hw => by simp [decode_of_illegal hw] at h

theorem zero_of_decode {w : Word} {i : Instr} (h : decode w = some i) : w.toNat / 256 = 0 :=
  ((not_illegalWord_iff w).mp (not_illegalWord_of_decode h)).1

theorem decodeOp_opField_encode (i : Instr) : decodeOp (opField (encode i)) = some i := by
  rw [← decode_of_zero (zero_of_decode (decode_encode i)), decode_encode]

/-! #### The opcode byte -/

/-- A row of R92 read backwards: its opcode is the number in its `match` column. -/
theorem toNat_eq_of_decodeOp {op : BitVec 8} {i : Instr} (h : decodeOp op = some i) : op.toNat = (encode i).toNat := by
  unfold decodeOp at h
  split at h
  all_goals cases h
  all_goals assumption

theorem decodeOp_isSome_of_legal : ∀ op ∈ legalOpcodes, (decodeOp op).isSome = true := by decide

/-! #### Words and commands -/

theorem eq_encode_of_decode {w : Word} {i : Instr} (h : decode w = some i) : w = encode i := by
  have zero : w.toNat / 256 = 0 := zero_of_decode h
  have low : w.toNat % 256 = (encode i).toNat := by
    rw [← opField_toNat, toNat_eq_of_decodeOp (decode_of_zero zero ▸ h)]
  exact BitVec.eq_of_toNat_eq (by omega)

theorem decode_eq_some_iff (w : Word) (i : Instr) : decode w = some i ↔ w = encode i :=
  ⟨eq_encode_of_decode, fun h => h ▸ decode_encode i⟩

theorem decode_isSome_of_not_illegalWord {w : Word} (h : ¬ IllegalWord w) : (decode w).isSome = true := by
  obtain ⟨zero, legal⟩ := (not_illegalWord_iff w).mp h
  obtain ⟨op, hop, heq⟩ := List.mem_map.mp legal
  have hw : opField w = op := BitVec.eq_of_toNat_eq ((opField_toNat w).trans heq.symm)
  rw [decode_of_zero zero, hw]
  exact decodeOp_isSome_of_legal op hop

theorem decode_eq_none_iff (w : Word) : decode w = none ↔ IllegalWord w := by
  refine ⟨fun h => ?_, decode_of_illegal⟩
  by_contra legal
  simpa [h] using decode_isSome_of_not_illegalWord legal

/-- Settles O6: the ZERO field and the opcode byte of a word are together the whole word, and the byte's row in the table is
the command's. -/
theorem decodeExactlyTheTable : Obligations.DecodeExactlyTheTable :=
  ⟨fun w i _ => decode_eq_some_iff w i, decode_eq_none_iff, fun i _ => ⟨decode_encode i, decodeOp_opField_encode i⟩⟩

end Sys2Proof.Machine

end

/-! ### The control commands (40_control.md R101, R102) -/

section

namespace Sys2Proof.Machine

/-- A command that is never refused has no check at all (60_exceptions.md R184). -/
theorem checksAre_never {i : Instr} (h : ∀ s, acceptanceCheck i s = none) : ChecksAre i Never Never Never := by
  intro s
  simp [h s, Never]

/-! #### The issue of a command that passes its checks, and the completion of one that raises no flag -/

theorem exec_accepted {i : Instr} {s : State} (hb : s.status.busy = false) (he : s.status.err = false)
    (hc : acceptanceCheck i s = none) : exec i s = .next ((s.accept (encode i)).answer .written) := by
  rw [exec_idle hb, hc, issue_idle_ok _ hb he]

theorem exec_locked {i : Instr} {s : State} (hb : s.status.busy = false) (he : s.status.err = true) :
    exec i s = .next (s.answer .written) := by
  rw [exec_idle hb, issue_locked _ _ hb he]

/-- With nothing saturated and no short input the sticky flags stay (10_state.md R61). -/
theorem Status.completed_false_false (f : Status) : f.completed false false = { f with busy := false, done := true } := by
  apply Status.ext <;> simp

/-! #### NOP -/

theorem acceptanceCheck_nop (s : State) : acceptanceCheck .nop s = none := rfl

theorem nopEffect_finish (s : State) :
    (nopEffect s).finish = { s with
      status := { s.status with busy := false, done := true }, opLatch := none, events := s.events.tail,
      reply := .none } := by
  rw [← Status.completed_false_false s.status]
  rfl

/-- Settles O24: the three outcomes of exec are acceptance, the lock-out, and a completion around an empty effect. -/
theorem nopCompletes : Obligations.NopCompletes :=
  ⟨checksAre_never acceptanceCheck_nop,
    fun _ hb he => exec_accepted hb he (acceptanceCheck_nop _),
    fun _ hb he => exec_locked hb he,
    fun s hb => (exec_busy hb).trans (congrArg _ (nopEffect_finish s))⟩

/-! #### XCHG -/

theorem acceptanceCheck_xchg (s : State) : acceptanceCheck .xchg s = none := rfl

/-- With BANK toggled the source is the buffer that was the destination (10_state.md R55). -/
theorem xchgEffect_source (s : State) : (xchgEffect s).state.source = s.dest := by
  cases h : s.status.bank <;> simp [xchgEffect, State.source, State.dest, h]

theorem xchgEffect_dest (s : State) : (xchgEffect s).state.dest = s.source := by
  cases h : s.status.bank <;> simp [xchgEffect, State.source, State.dest, h]

theorem xchgEffect_finish_status (s : State) :
    (xchgEffect s).finish.status = { s.status with busy := false, done := true, bank := !s.status.bank } :=
  Status.completed_false_false _

theorem xchgEffect_finish_xWord (s : State) (i : Nat) : (xchgEffect s).finish.xWord i = s.yWord i := by
  rw [State.xWord, Completion.finish_source, xchgEffect_source, State.yWord]

theorem xchgEffect_finish_yWord (s : State) (i : Nat) : (xchgEffect s).finish.yWord i = s.xWord i := by
  rw [State.yWord, Completion.finish_dest, xchgEffect_dest, State.xWord]

/-- Two XCHG in a row restore BANK, XLEN and YLEN and both windows: the second meets the state the first left, accepted
again (R102). -/
theorem xchg_twice_restores (s : State) :
    let t := (xchgEffect s).finish
    let u := (xchgEffect { t with status := { t.status with busy := true } }).finish
    u.regs = s.regs ∧ u.status.bank = s.status.bank ∧ (∀ i, u.xWord i = s.xWord i) ∧ ∀ i, u.yWord i = s.yWord i := by
  intro t u
  refine ⟨rfl, Bool.not_not _, fun i => ?_, fun i => ?_⟩
  · calc u.xWord i = t.yWord i := xchgEffect_finish_xWord _ i
      _ = s.xWord i := xchgEffect_finish_yWord s i
  · calc u.yWord i = t.xWord i := xchgEffect_finish_yWord _ i
      _ = s.yWord i := xchgEffect_finish_xWord s i

/-- Settles O25: no memory is touched, so the windows change places with BANK, and a second exchange undoes the first. -/
theorem xchgSwapsSourceAndDestination : Obligations.XchgSwapsSourceAndDestination := by
  refine ⟨checksAre_never acceptanceCheck_xchg,
    fun s hb he => ⟨_, exec_accepted hb he (acceptanceCheck_xchg s), rfl, rfl, rfl⟩, fun s hb => ?_⟩
  exact ⟨(xchgEffect s).finish, exec_busy hb, xchgEffect_finish_status s, rfl, xchgEffect_finish_xWord s,
    xchgEffect_finish_yWord s, SameBytes.rfl' _, SameBytes.rfl' _, SameBytes.rfl' _, SameBytes.rfl' _, rfl,
    _, exec_busy rfl, xchg_twice_restores s⟩

end Sys2Proof.Machine

end

/-! ### The transmit filters (41_txfilter.md R116 to R120) -/

section

namespace Sys2Proof.Machine

/-! #### A completion that writes Y -/

/-- Everything a completion that stores `ys` in Y does besides the flags (10_state.md R42, R55). -/
theorem finish_writeY {s : State} {c : Completion} {ys : List Word} (h : c.state = s.writeY ys)
    (hlen : ys.length < 8192) :
    KeepsAllButY s c.finish ∧ c.finish.regs = { s.regs with ylen := c.finish.regs.ylen } ∧
      c.finish.ylen = ys.length ∧ ∀ n (hn : n < ys.length), c.finish.yWord n = ys[n] :=
  ⟨keepsAllButY_of_writeY (g := s.regs) h, finish_regs_writeY h, finish_ylen h hlen, fun _ => finish_yWord h⟩

/-! #### The acceptance checks (60_exceptions.md R184) -/

theorem checksAre_txhold :
    ChecksAre .txhold SpsOutside (fun s => XlenOver s ∨ s.xlen * s.sps > 4096) Never :=
  fun s => firstError_iff (badSps_iff s) (badUpsampledLen_iff s) Bool.false_eq_true.to_iff

theorem checksAre_txshape :
    ChecksAre .txshape SpsOutside (fun s => XlenOver s ∨ s.xlen * s.sps > 4096)
      (fun s => s.clen = 0 ∨ s.clen > 385) :=
  fun s => firstError_iff (badSps_iff s) (badUpsampledLen_iff s) (badKernel_iff s)

/-- The upsampled output of an accepted command fits in Y (60_exceptions.md R183). -/
theorem upsampledLen_le_of_accepted {i : Instr} {s : State} (hi : i = .txhold ∨ i = .txshape) (h : Accepted i s) :
    s.xlen * s.sps ≤ 4096 := by
  have checks : s.badUpsampledLen = false := by
    rcases hi with rfl | rfl
    · obtain ⟨-, len, -⟩ := firstError_none.mp h.2
      exact len
    · obtain ⟨-, len, -⟩ := firstError_none.mp h.2
      exact len
  exact ((badUpsampledLen_false s).mp checks).2

/-! #### TXHOLD -/

@[simp] theorem holdFilter_length (S : Nat) (xs : List Int) : (holdFilter S xs).length = xs.length * S := by
  simp [holdFilter]

/-- Sample n of the output belongs to a symbol of the input. -/
theorem div_sps_lt_xlen {s : State} {n : Nat} (h : n < s.xlen * s.sps) : n / s.sps < s.xlen :=
  Nat.div_lt_of_lt_mul (Nat.mul_comm _ _ ▸ h)

theorem holdFilter_samples_getElem {s : State} {n : Nat} (hn : n < (holdFilter s.sps s.samples).length) :
    (holdFilter s.sps s.samples)[n] = s.x (n / s.sps) := by
  have h : n < s.xlen * s.sps := by simpa using hn
  simp only [holdFilter, List.getElem_map, List.getElem_range]
  exact samples_getD s (div_sps_lt_xlen h)

/-- Settles O29: each stored word is the word of the sample it holds, and nothing is computed that could saturate. -/
theorem txholdHoldsEachLevel : Obligations.TxholdHoldsEachLevel := by
  refine ⟨checksAre_txhold, fun s hacc => ?_⟩
  have fits : s.xlen * s.sps ≤ 4096 := upsampledLen_le_of_accepted (.inl rfl) hacc
  have len : ((holdFilter s.sps s.samples).map wordOfInt).length = s.xlen * s.sps := by simp
  obtain ⟨frame, regs, ylen, words⟩ := finish_writeY (c := txholdEffect s) rfl (by omega)
  refine ⟨(txholdEffect s).finish, exec_busy hacc.1,
    (effect_completes .txhold s).congr Bool.false_eq_true.to_iff beq_iff_eq, frame, regs, ylen.trans len, fun n hn => ?_⟩
  calc (txholdEffect s).finish.yWord n
      = wordOfInt (s.x (n / s.sps)) := by
        rw [words n (len ▸ hn), List.getElem_map, holdFilter_samples_getElem]
    _ = s.xWord (n / s.sps) := wordOfInt_toInt _

/-! #### TXSHAPE -/

/-- At a natural index the zero-inserted input is what the filter's loop reads (41_txfilter.md R117). -/
theorem upsampled_natCast (s : State) (m : Nat) :
    upsampled s m = if m < s.xlen * s.sps ∧ m % s.sps = 0 then s.samples.getD (m / s.sps) 0 else 0 := by
  have cond : (0 ≤ (m : Int) ∧ (m : Int) < s.xlen * s.sps ∧ (m : Int) % s.sps = 0) ↔
      m < s.xlen * s.sps ∧ m % s.sps = 0 := by
    norm_cast
    simp
  rw [upsampled, if_congr cond rfl rfl]
  split
  · next h => rw [samples_getD s (div_sps_lt_xlen h.1), ← Int.natCast_div, Int.toNat_natCast]
  · rfl

theorem upsampled_of_neg (s : State) {m : Int} (h : m < 0) : upsampled s m = 0 := if_neg fun hm => by omega

/-- The filter's accumulation is the full convolution at the delayed index: the terms it skips are those whose input index
is negative, and they are 0 (41_txfilter.md R118, R119). -/
theorem shapeSum_eq_fullConvolution (s : State) (n : Nat) :
    shapeSum s.sps s.kernel s.samples n = fullConvolution s (n + s.clen / 2 : Nat) := by
  rw [shapeSum, sumTo_eq_sum, fullConvolution, kernel_length, samples_length]
  refine Finset.sum_congr rfl fun k hk => ?_
  rw [kernel_getD s (Finset.mem_range.mp hk)]
  rcases Nat.lt_or_ge (n + s.clen / 2) k with hlt | hle
  · rw [if_neg fun h => absurd h.1 (Nat.not_le.mpr hlt), upsampled_of_neg s (by omega), mul_zero]
  · rw [← Nat.cast_sub hle, upsampled_natCast, mul_ite, mul_zero]
    simp only [hle, true_and]

@[simp] theorem shapeFilter_length (S : Nat) (cs xs : List Int) : (shapeFilter S cs xs).length = xs.length * S := by
  simp [shapeFilter]

/-- The samples of TXSHAPE before saturation are the trimmed full convolution, rounded (41_txfilter.md R118). -/
theorem shapeFilter_eq (s : State) :
    shapeFilter s.sps s.kernel s.samples =
      (List.range (s.xlen * s.sps)).map fun n => rnd (fullConvolution s (n + s.clen / 2 : Nat)) := by
  simp only [shapeFilter, shapeSum_eq_fullConvolution, samples_length]

/-- TXSHAPE saturates exactly when a sample is clipped (00_scope.md R10). -/
theorem txshapeEffect_saturated_iff (s : State) :
    (txshapeEffect s).saturated = true ↔
      ∃ n, n < s.xlen * s.sps ∧ clips (rnd (fullConvolution s (n + s.clen / 2 : Nat))) = true := by
  simp [txshapeEffect, shapeFilter_eq]

/-- Settles O30: the accumulation is the full convolution, and a saturated sample survives its word. -/
theorem txshapeConvolvesAndTrims : Obligations.TxshapeConvolvesAndTrims := by
  refine ⟨checksAre_txshape, fun s hacc => ?_⟩
  have fits : s.xlen * s.sps ≤ 4096 := upsampledLen_le_of_accepted (.inr rfl) hacc
  have len : ((shapeFilter s.sps s.kernel s.samples).map fun v => wordOfInt (sat v)).length = s.xlen * s.sps := by simp
  obtain ⟨frame, regs, ylen, words⟩ := finish_writeY (c := txshapeEffect s) rfl (by omega)
  refine ⟨(txshapeEffect s).finish, exec_busy hacc.1,
    (effect_completes .txshape s).congr (txshapeEffect_saturated_iff s) beq_iff_eq, frame, regs, ylen.trans len,
    fun n hn => ?_⟩
  have word : (txshapeEffect s).finish.yWord n =
      wordOfInt (sat (rnd (fullConvolution s (n + s.clen / 2 : Nat)))) := by
    rw [words n (len ▸ hn)]
    simp [shapeFilter_eq]
  rw [State.y, word, toInt_wordOfInt (sat_range _).1 (sat_range _).2]

/-! #### TXFILT -/

theorem shapedKind_false_iff (s : State) : s.shapedKind = false ↔ ¬(s.fkind = 1 ∨ s.fkind = 2) := by
  rw [← shapedKind_iff, Bool.not_eq_true]

theorem acceptanceCheck_txfilt_reserved {s : State} (h : s.fkind = 3) :
    acceptanceCheck .txfilt s = some .badCfg := by
  simp [acceptanceCheck, checkTxfilt, firstError, h]

theorem acceptanceCheck_txfilt_rect {s : State} (h : s.fkind = 0) :
    acceptanceCheck .txfilt s = acceptanceCheck .txhold s := by
  have shaped : s.shapedKind = false := (shapedKind_false_iff s).mpr (by omega)
  simp [acceptanceCheck, checkTxfilt, checkTxhold, h, shaped]

theorem acceptanceCheck_txfilt_shaped {s : State} (h : s.fkind = 1 ∨ s.fkind = 2) :
    acceptanceCheck .txfilt s = acceptanceCheck .txshape s := by
  have kind : (s.fkind == 3) = false := beq_eq_false_iff_ne.mpr (by omega)
  have shaped : s.shapedKind = true := (shapedKind_iff s).mpr h
  simp [acceptanceCheck, checkTxfilt, checkTxshape, kind, shaped]

theorem effectOf_txfilt_rect {s : State} (h : s.fkind = 0) : effectOf .txfilt s = effectOf .txhold s := if_pos h

theorem effectOf_txfilt_shaped {s : State} (h : s.fkind = 1 ∨ s.fkind = 2) :
    effectOf .txfilt s = effectOf .txshape s := if_neg (by omega)

/-- Two commands with one effect complete alike. -/
theorem exec_busy_of_same_effect {i j : Instr} {s : State} (hb : s.status.busy = true)
    (h : effectOf i s = effectOf j s) : ∃ t, exec i s = .next t ∧ exec j s = .next t :=
  ⟨(effectOf i s).finish, exec_busy hb, h ▸ exec_busy hb⟩

/-- Settles O32: the checks and the effect of each FKIND are those of the command it selects. -/
theorem txfiltSelectsByKind : Obligations.TxfiltSelectsByKind := fun _ =>
  ⟨acceptanceCheck_txfilt_reserved, acceptanceCheck_txfilt_rect, acceptanceCheck_txfilt_shaped,
    fun hacc h => exec_busy_of_same_effect hacc.1 (effectOf_txfilt_rect h),
    fun hacc h => exec_busy_of_same_effect hacc.1 (effectOf_txfilt_shaped h)⟩

end Sys2Proof.Machine

end

/-! ### The reception filters (42_rxfilter.md R131, R134 to R138) -/

section

namespace Sys2Proof.Machine

/-! #### What acceptance grants (60_exceptions.md R182, R183) -/

theorem one_le_sps_of_accepted {i : Instr} {s : State} (hi : ReadsSps i) (h : Accepted i s) : 1 ≤ s.sps := by
  obtain ⟨-, -, -, accepted⟩ := checksAre_prose i s
  obtain ⟨cfg, -, -⟩ := accepted.mp h.2
  exact Nat.one_le_iff_ne_zero.mpr fun zero => cfg (.inl ⟨hi, .inl zero⟩)

theorem xlen_le_of_accepted {i : Instr} {s : State} (hi : ReadsX i) (h : Accepted i s) : s.xlen ≤ 4096 := by
  obtain ⟨-, -, -, accepted⟩ := checksAre_prose i s
  obtain ⟨-, len, -⟩ := accepted.mp h.2
  exact Nat.not_lt.mp fun long => len (.inl ⟨hi, long⟩)

/-! #### A completion that stores one sample for each sample of X -/

/-- An accepted command whose effect is to store `ys`, as long as X, in Y without saturating (10_state.md R42, R55, R61). -/
theorem exec_storing {i : Instr} {s : State} {ys : List Int} {b : Bool} {short : Prop} (hi : ReadsX i)
    (hacc : Accepted i s)
    (heff : effectOf i s = { state := s.writeY (ys.map wordOfInt), saturated := false, short := b })
    (hshort : b = true ↔ short) (hlen : ys.length = s.xlen) :
    ∃ t, exec i s = .next t ∧ Completes s t False short ∧ KeepsAllButY s t ∧
      t.regs = { s.regs with ylen := t.regs.ylen } ∧ t.ylen = s.xlen ∧
      ∀ n (hn : n < ys.length), t.yWord n = wordOfInt ys[n] := by
  have fits : s.xlen ≤ 4096 := xlen_le_of_accepted hi hacc
  have len : (ys.map wordOfInt).length = s.xlen := by simpa using hlen
  obtain ⟨frame, regs, ylen, words⟩ := finish_writeY (congrArg Completion.state heff) (by omega)
  refine ⟨(effectOf i s).finish, exec_busy hacc.1, (effect_completes i s).congr (by simp [heff]) (by simpa [heff]),
    frame, regs, ylen.trans len, fun n hn => ?_⟩
  rw [words n (by simpa using hn), List.getElem_map]

/-! #### The short input (R131) -/

theorem unlessShort_of_lt (filter : State → Completion) {s : State} (h : s.xlen < s.sps) :
    unlessShort filter s = { state := s.writeY (s.samples.map wordOfInt), saturated := false, short := true } :=
  if_pos h

theorem unlessShort_of_le (filter : State → Completion) {s : State} (h : s.sps ≤ s.xlen) :
    unlessShort filter s = filter s := if_neg (Nat.not_lt.mpr h)

/-- Each of the four commands applies a filter that leaves SHORT to inputs that are not short. -/
theorem effectOf_reception {i : Instr} (hi : i = .rxfilt ∨ i = .rxmatch ∨ i = .rxsmooth ∨ i = .rxmavg) (s : State) :
    ∃ filter, effectOf i s = unlessShort filter s ∧ (filter s).short = false := by
  rcases hi with rfl | rfl | rfl | rfl
  case inl =>
    show ∃ filter, rxfiltEffect s = _ ∧ _
    unfold rxfiltEffect
    split
    · exact ⟨smoothLong, rfl, rfl⟩
    · split
      · exact ⟨averageLong, rfl, rfl⟩
      · exact ⟨matchLong, rfl, rfl⟩
  · exact ⟨matchLong, rfl, rfl⟩
  · exact ⟨smoothLong, rfl, rfl⟩
  · exact ⟨averageLong, rfl, rfl⟩

theorem readsX_of_reception {i : Instr} (hi : i = .rxfilt ∨ i = .rxmatch ∨ i = .rxsmooth ∨ i = .rxmavg) : ReadsX i := by
  rcases hi with rfl | rfl | rfl | rfl <;> simp [ReadsX]

/-- Settles O33: by the test XLEN < SPS, which stands before every filter; the words of the short input are X's own. -/
theorem receptionShortInputPassesThrough : Obligations.ReceptionShortInputPassesThrough := by
  intro i s hi hacc
  obtain ⟨filter, effect, keepsShort⟩ := effectOf_reception hi s
  refine ⟨fun h => ?short, fun h => ?long⟩
  case short =>
    obtain ⟨t, run, flags, frame, regs, ylen, words⟩ := exec_storing (readsX_of_reception hi) hacc
      (effect.trans (unlessShort_of_lt filter h)) (iff_true_intro rfl) (samples_length s)
    refine ⟨t, run, flags, frame, regs, ylen, fun j hj => ?_⟩
    rw [words j (by simpa using hj), samples_getElem]
    exact wordOfInt_toInt _
  case long =>
    have notShort : (effectOf i s).short = false := by rw [effect, unlessShort_of_le filter h, keepsShort]
    obtain ⟨-, -, -, short, -⟩ := effect_completes i s
    exact ⟨_, exec_busy hacc.1, Bool.eq_iff_iff.mpr (short.trans (by simp [notShort]))⟩

/-! #### RXSMOOTH (R134, R135) -/

theorem checksAre_rxsmooth :
    ChecksAre .rxsmooth (fun s => SpsOutside s ∨ s.smoothA > 16777216) XlenOver Never :=
  fun s => firstError_iff (by simp [SpsOutside]) (badXlen_iff s) Bool.false_eq_true.to_iff

theorem smoothA_le_of_accepted {s : State} (h : Accepted .rxsmooth s) : s.smoothA ≤ 16777216 := by
  obtain ⟨-, -, -, accepted⟩ := checksAre_rxsmooth s
  obtain ⟨cfg, -, -⟩ := accepted.mp h.2
  exact Nat.not_lt.mp fun large => cfg (.inr large)

/-- A weighted mean, weights A and ONE - A, lies where its two terms lie, also rounded. -/
theorem rnd_mix_between {A v prev lo hi : Int} (hA : 0 ≤ A ∧ A ≤ 16777216) (hv : lo ≤ v ∧ v ≤ hi)
    (hp : lo ≤ prev ∧ prev ≤ hi) :
    lo ≤ rnd (A * v + (16777216 - A) * prev) ∧ rnd (A * v + (16777216 - A) * prev) ≤ hi := by
  have hB : 0 ≤ 16777216 - A := by omega
  refine rnd_between ?_ ?_
  · calc 16777216 * lo = A * lo + (16777216 - A) * lo := by ring
      _ ≤ A * v + (16777216 - A) * prev :=
        add_le_add (mul_le_mul_of_nonneg_left hv.1 hA.1) (mul_le_mul_of_nonneg_left hp.1 hB)
  · calc A * v + (16777216 - A) * prev
      _ ≤ A * hi + (16777216 - A) * hi :=
        add_le_add (mul_le_mul_of_nonneg_left hv.2 hA.1) (mul_le_mul_of_nonneg_left hp.2 hB)
      _ = 16777216 * hi := by ring

/-- Settled on a level, the recurrence stays on it. -/
theorem rnd_mix_self (A v : Int) : rnd (A * v + (16777216 - A) * v) = v := by
  rw [← add_mul, add_sub_cancel, rnd_one_mul]

@[simp] theorem smoothFrom_length (A prev : Int) (xs : List Int) : (smoothFrom A prev xs).length = xs.length := by
  induction xs generalizing prev with
  | nil => rfl
  | cons v vs ih => simp [smoothFrom, ih]

@[simp] theorem smoothFilter_length (A : Int) (xs : List Int) : (smoothFilter A xs).length = xs.length :=
  smoothFrom_length A _ xs

theorem smoothFrom_between {A prev lo hi : Int} {xs : List Int} (hA : 0 ≤ A ∧ A ≤ 16777216)
    (hp : lo ≤ prev ∧ prev ≤ hi) (hxs : ∀ v ∈ xs, lo ≤ v ∧ v ≤ hi) : ∀ y ∈ smoothFrom A prev xs, lo ≤ y ∧ y ≤ hi := by
  induction xs generalizing prev with
  | nil => simp [smoothFrom]
  | cons v vs ih =>
    obtain ⟨hv, hvs⟩ := List.forall_mem_cons.mp hxs
    have hy := rnd_mix_between hA hv hp
    exact List.forall_mem_cons.mpr ⟨hy, ih hy hvs⟩

theorem smoothFilter_between {A lo hi : Int} {xs : List Int} (hA : 0 ≤ A ∧ A ≤ 16777216)
    (hxs : ∀ v ∈ xs, lo ≤ v ∧ v ≤ hi) : ∀ y ∈ smoothFilter A xs, lo ≤ y ∧ y ≤ hi := by
  cases xs with
  | nil => simp [smoothFilter, smoothFrom]
  | cons v vs => exact smoothFrom_between hA (hxs v List.mem_cons_self) hxs

theorem smoothFrom_getElem_succ (A prev : Int) (xs : List Int) (i : Nat) (h : i + 1 < xs.length) :
    (smoothFrom A prev xs)[i + 1]'(by simpa using h) =
      rnd (A * xs[i + 1] + (16777216 - A) * (smoothFrom A prev xs)[i]'(by simp; omega)) := by
  induction xs generalizing prev i with
  | nil => simp at h
  | cons v vs ih =>
    cases i with
    | zero =>
      cases vs with
      | nil => simp at h
      | cons w ws => rfl
    | succ i => exact ih _ i (by simpa using h)

theorem smoothFilter_getElem_zero (A : Int) (xs : List Int) (h : 0 < xs.length) :
    (smoothFilter A xs)[0]'(by simpa using h) = xs[0] := by
  cases xs with
  | nil => simp at h
  | cons v vs => exact rnd_mix_self A v

section
variable {A n : Nat} {x y : Nat → Int}

/-- With A = ONE the recurrence copies its input. -/
theorem recurrence_one (first : y 0 = x 0)
    (next : ∀ i, i + 1 < n → y (i + 1) = rnd (A * x (i + 1) + (16777216 - A) * y i)) (hA : A = 16777216) :
    ∀ i, i < n → y i = x i
  | 0, _ => first
  | i + 1, h => by
    rw [next i h, hA]
    simpa using rnd_one_mul (x (i + 1))

/-- With A = 0 the recurrence never leaves its first output. -/
theorem recurrence_zero (first : y 0 = x 0)
    (next : ∀ i, i + 1 < n → y (i + 1) = rnd (A * x (i + 1) + (16777216 - A) * y i)) (hA : A = 0) :
    ∀ i, i < n → y i = x 0
  | 0, _ => first
  | i + 1, h => by
    rw [next i h, recurrence_zero first next hA i (by omega), hA]
    simpa using rnd_one_mul (x 0)

end

/-- Settles O35: the rounded outputs stay between the bounds of the input, so each survives its word and the words follow
the recurrence of the filter; the two ends of A follow from the recurrence. -/
theorem rxsmoothFollowsTheRecurrence : Obligations.RxsmoothFollowsTheRecurrence := by
  refine ⟨checksAre_rxsmooth, fun s hacc hlong => ?_⟩
  have pos : 1 ≤ s.sps := one_le_sps_of_accepted (by simp [ReadsSps]) hacc
  have hA : 0 ≤ (s.smoothA : Int) ∧ (s.smoothA : Int) ≤ 16777216 := by
    have := smoothA_le_of_accepted hacc
    omega
  have len : (smoothFilter s.smoothA s.samples).length = s.xlen := by simp
  have between (lo hi : Int) (h : ∀ i, i < s.xlen → lo ≤ s.x i ∧ s.x i ≤ hi) :
      ∀ y ∈ smoothFilter s.smoothA s.samples, lo ≤ y ∧ y ≤ hi :=
    smoothFilter_between hA fun v hv => by
      obtain ⟨i, hi, rfl⟩ := mem_samples.mp hv
      exact h i hi
  obtain ⟨t, run, flags, frame, regs, ylen, words⟩ := exec_storing (i := .rxsmooth) (by simp [ReadsX]) hacc
    (unlessShort_of_le smoothLong hlong) Bool.false_eq_true.to_iff len
  have stored (i : Nat) (hi : i < s.xlen) : t.y i = (smoothFilter s.smoothA s.samples)[i]'(len.symm ▸ hi) := by
    obtain ⟨h1, h2⟩ := between _ _ (fun j _ => x_range s j) _ (List.getElem_mem (len.symm ▸ hi))
    rw [State.y, words i (len.symm ▸ hi), toInt_wordOfInt h1 h2]
  have first : t.y 0 = s.x 0 := by
    rw [stored 0 (by omega), smoothFilter_getElem_zero _ _ (by simp; omega), samples_getElem]
  have next (i : Nat) (hi : i + 1 < s.xlen) :
      t.y (i + 1) = rnd (s.smoothA * s.x (i + 1) + (16777216 - s.smoothA) * t.y i) := by
    have hi' : i + 1 < s.samples.length := by simpa using hi
    rw [stored (i + 1) hi, stored i (by omega), ← samples_getElem s hi']
    exact smoothFrom_getElem_succ _ _ _ i hi'
  refine ⟨t, run, flags, frame, regs, ylen, first, next, fun lo hi h i hi' => ?_, recurrence_one first next,
    recurrence_zero first next⟩
  rw [stored i hi']
  exact between lo hi h _ (List.getElem_mem _)

/-! #### RXMAVG (R136, R137) -/

theorem checksAre_rxmavg : ChecksAre .rxmavg SpsOutside XlenOver Never :=
  fun s => firstError_iff (badSps_iff s) (badXlen_iff s) Bool.false_eq_true.to_iff

/-- The indices of X within H = floor(S / 4) of i (R136). -/
def averagingWindow (s : State) (i : Nat) : Finset Nat :=
  (Finset.range s.xlen).filter fun j : Nat => |(j : Int) - (i : Int)| ≤ ((s.sps / 4 : Nat) : Int)

/-- The clipped window is the interval from lo to hi of R137. -/
theorem averagingWindow_eq_Ico {s : State} {i : Nat} (hi : i < s.xlen) :
    averagingWindow s i = Finset.Ico (i - s.sps / 4) (min (s.xlen - 1) (i + s.sps / 4) + 1) := by
  ext j
  simp only [averagingWindow, Finset.mem_filter, Finset.mem_range, Finset.mem_Ico, abs_le]
  omega

theorem self_mem_averagingWindow {s : State} {i : Nat} (hi : i < s.xlen) : i ∈ averagingWindow s i := by
  simp only [averagingWindow, Finset.mem_filter, Finset.mem_range, sub_self, abs_zero]
  exact ⟨hi, Int.natCast_nonneg _⟩

/-- Output i is the truncated mean over the window. -/
theorem averageAt_eq {s : State} {i : Nat} (hi : i < s.xlen) :
    averageAt s.sps s.samples i = tdiv (∑ j ∈ averagingWindow s i, s.x j) (averagingWindow s i).card := by
  have count : min (s.xlen - 1) (i + s.sps / 4) + 1 - (i - s.sps / 4) =
      min (s.xlen - 1) (i + s.sps / 4) - (i - s.sps / 4) + 1 := by omega
  have reads : ∀ j ∈ averagingWindow s i, s.samples.getD j 0 = s.x j := fun j hj =>
    samples_getD s (Finset.mem_range.mp (Finset.mem_filter.mp hj).1)
  rw [← Finset.sum_congr rfl reads, averagingWindow_eq_Ico hi, Finset.sum_Ico_eq_sum_range, Nat.card_Ico, count,
    averageAt, sumTo_eq_sum, samples_length]

/-- A mean of words is in the range of a word (R137: no sat is needed). -/
theorem averageAt_range {s : State} {i : Nat} (hi : i < s.xlen) :
    Config.minw ≤ averageAt s.sps s.samples i ∧ averageAt s.sps s.samples i ≤ Config.maxw := by
  rw [averageAt_eq hi]
  have kept : 0 < (averagingWindow s i).card := Finset.card_pos.mpr ⟨i, self_mem_averagingWindow hi⟩
  refine tdiv_between (by exact_mod_cast kept) ?_ ?_
  · simpa using (averagingWindow s i).card_nsmul_le_sum s.x _ fun j _ => (x_range s j).1
  · simpa using (averagingWindow s i).sum_le_card_nsmul s.x _ fun j _ => (x_range s j).2

/-- Settles O36: the sum from lo to hi is the sum over the window, and the mean survives its word. -/
theorem rxmavgAveragesTheWindow : Obligations.RxmavgAveragesTheWindow := by
  refine ⟨checksAre_rxmavg, fun s hacc hlong => ?_⟩
  have len : (averageFilter s.sps s.samples).length = s.xlen := by simp [averageFilter]
  obtain ⟨t, run, flags, frame, regs, ylen, words⟩ := exec_storing (i := .rxmavg) (by simp [ReadsX]) hacc
    (unlessShort_of_le averageLong hlong) Bool.false_eq_true.to_iff len
  refine ⟨t, run, flags, frame, regs, ylen, fun i hi => ?_⟩
  obtain ⟨h1, h2⟩ := averageAt_range hi
  calc t.y i = (wordOfInt (averageAt s.sps s.samples i)).toInt := by
        rw [State.y, words i (len.symm ▸ hi)]
        simp [averageFilter]
    _ = averageAt s.sps s.samples i := toInt_wordOfInt h1 h2
    _ = tdiv (∑ j ∈ averagingWindow s i, s.x j) (averagingWindow s i).card := averageAt_eq hi

/-! #### RXFILT (R138) -/

theorem acceptanceCheck_rxfilt_reserved {s : State} (h : s.fkind = 3) :
    acceptanceCheck .rxfilt s = some .badCfg := by
  simp [acceptanceCheck, checkRxfilt, firstError, h]

theorem acceptanceCheck_rxfilt_ternary {s : State} (hk : s.fkind ≠ 3) (ht : s.enc = 2 ∨ s.enc = 3) :
    acceptanceCheck .rxfilt s = acceptanceCheck .rxsmooth s := by
  have ternary : s.ternary = true := (ternary_iff s).mpr ht
  have kind : (s.fkind == 3) = false := beq_eq_false_iff_ne.mpr hk
  simp [acceptanceCheck, checkRxfilt, checkRxsmooth, kind, ternary]

theorem acceptanceCheck_rxfilt_rect {s : State} (ht : ¬(s.enc = 2 ∨ s.enc = 3)) (hk : s.fkind = 0) :
    acceptanceCheck .rxfilt s = acceptanceCheck .rxmavg s := by
  have ternary : s.ternary = false := (ternary_false_iff s).mpr ht
  have shaped : s.shapedKind = false := (shapedKind_false_iff s).mpr (by omega)
  simp [acceptanceCheck, checkRxfilt, checkRxmavg, hk, ternary, shaped]

theorem acceptanceCheck_rxfilt_shaped {s : State} (ht : ¬(s.enc = 2 ∨ s.enc = 3)) (hk : s.fkind = 1 ∨ s.fkind = 2) :
    acceptanceCheck .rxfilt s = acceptanceCheck .rxmatch s := by
  have ternary : s.ternary = false := (ternary_false_iff s).mpr ht
  have kind : (s.fkind == 3) = false := beq_eq_false_iff_ne.mpr (by omega)
  have shaped : s.shapedKind = true := (shapedKind_iff s).mpr hk
  simp [acceptanceCheck, checkRxfilt, checkRxmatch, kind, ternary, shaped]

theorem effectOf_rxfilt_ternary {s : State} (ht : s.enc = 2 ∨ s.enc = 3) :
    effectOf .rxfilt s = effectOf .rxsmooth s := if_pos ((ternary_iff s).mpr ht)

theorem effectOf_rxfilt_binary {s : State} (ht : ¬(s.enc = 2 ∨ s.enc = 3)) :
    effectOf .rxfilt s = if s.fkind = 0 then effectOf .rxmavg s else effectOf .rxmatch s :=
  if_neg (mt (ternary_iff s).mp ht)

/-- Settles O37: the checks and the effect of each ENC and FKIND are those of the command they select. -/
theorem rxfiltSelectsByEncodingThenKind : Obligations.RxfiltSelectsByEncodingThenKind := fun _ =>
  ⟨acceptanceCheck_rxfilt_reserved, acceptanceCheck_rxfilt_ternary, acceptanceCheck_rxfilt_rect,
    acceptanceCheck_rxfilt_shaped, fun hacc ht => exec_busy_of_same_effect hacc.1 (effectOf_rxfilt_ternary ht),
    fun hacc ht hk => exec_busy_of_same_effect hacc.1 ((effectOf_rxfilt_binary ht).trans (if_pos hk)),
    fun hacc ht hk => exec_busy_of_same_effect hacc.1 ((effectOf_rxfilt_binary ht).trans (if_neg (by omega)))⟩

end Sys2Proof.Machine

end

/-! ### Clock recovery (43_clock_recovery.md R141 to R145) -/

section

namespace Sys2Proof.Machine

/-! #### The running least and greatest of a scan (00_scope.md R15) -/

theorem foldl_minSeen_some (v : Int) (vs : List Int) : vs.foldl minSeen (some v) = some (vs.foldl min v) := by
  induction vs generalizing v with
  | nil => rfl
  | cons w ws ih => exact ih (min v w)

theorem foldl_minSeen_none (vs : List Int) : vs.foldl minSeen none = vs.min? := by
  cases vs with
  | nil => rfl
  | cons v vs => exact (foldl_minSeen_some v vs).trans List.min?_cons'.symm

theorem foldl_maxSeen_some (v : Int) (vs : List Int) : vs.foldl maxSeen (some v) = some (vs.foldl max v) := by
  induction vs generalizing v with
  | nil => rfl
  | cons w ws ih => exact ih (max v w)

theorem foldl_maxSeen_none (vs : List Int) : vs.foldl maxSeen none = vs.max? := by
  cases vs with
  | nil => rfl
  | cons v vs => exact (foldl_maxSeen_some v vs).trans List.max?_cons'.symm

section
variable {P : Nat → Prop} {f : Nat → Int} {cs : List Nat} {v w : Int}

/-- The least value over a list of exactly the indices with P is the level the statements name. -/
theorem leastOrZero_min? (h : ∀ c, c ∈ cs ↔ P c) : LeastOrZero P f (orZero (cs.map f).min?) := by
  cases hmin : (cs.map f).min? with
  | none =>
    have empty : cs = [] := by simpa using hmin
    exact .inr ⟨fun c hc => by simpa [empty] using (h c).mpr hc, rfl⟩
  | some v =>
    obtain ⟨attained, least⟩ := List.min?_eq_some_iff.mp hmin
    obtain ⟨c, hc, rfl⟩ := List.mem_map.mp attained
    exact .inl ⟨⟨c, (h c).mp hc, rfl⟩, fun d hd => least _ (List.mem_map_of_mem ((h d).mpr hd))⟩

theorem greatestOrZero_max? (h : ∀ c, c ∈ cs ↔ P c) : GreatestOrZero P f (orZero (cs.map f).max?) := by
  cases hmax : (cs.map f).max? with
  | none =>
    have empty : cs = [] := by simpa using hmax
    exact .inr ⟨fun c hc => by simpa [empty] using (h c).mpr hc, rfl⟩
  | some v =>
    obtain ⟨attained, greatest⟩ := List.max?_eq_some_iff.mp hmax
    obtain ⟨c, hc, rfl⟩ := List.mem_map.mp attained
    exact .inl ⟨⟨c, (h c).mp hc, rfl⟩, fun d hd => greatest _ (List.mem_map_of_mem ((h d).mpr hd))⟩

theorem LeastOrZero.unique (h : LeastOrZero P f v) (h' : LeastOrZero P f w) : v = w := by
  rcases h with ⟨⟨c, hc, rfl⟩, least⟩ | ⟨empty, rfl⟩
  · rcases h' with ⟨⟨d, hd, rfl⟩, least'⟩ | ⟨empty, -⟩
    · exact le_antisymm (least d hd) (least' c hc)
    · exact absurd hc (empty c)
  · rcases h' with ⟨⟨d, hd, -⟩, -⟩ | ⟨-, rfl⟩
    · exact absurd hd (empty d)
    · rfl

/-- The greatest value is the least of the negated values, negated. -/
theorem greatestOrZero_iff_neg : GreatestOrZero P f v ↔ LeastOrZero P (fun c => -f c) (-v) := by
  simp [GreatestOrZero, LeastOrZero]

theorem GreatestOrZero.unique (h : GreatestOrZero P f v) (h' : GreatestOrZero P f w) : v = w :=
  neg_injective ((greatestOrZero_iff_neg.mp h).unique (greatestOrZero_iff_neg.mp h'))

theorem LeastOrZero.attained (h : LeastOrZero P f v) : (∃ c, P c ∧ f c = v) ∨ v = 0 := h.imp And.left And.right

theorem GreatestOrZero.attained (h : GreatestOrZero P f v) : (∃ c, P c ∧ f c = v) ∨ v = 0 := h.imp And.left And.right

end

/-! #### The centres of an offset (R141) -/

theorem mem_centres {M S o c : Nat} (hS : 1 ≤ S) : c ∈ centres M S o ↔ IsCentre M S o c := by
  simp only [centres, List.mem_filter, List.mem_map, List.mem_range, decide_eq_true_eq, IsCentre]
  refine and_congr_left fun hc => ⟨fun ⟨i, _, eq⟩ => ⟨i + 1, by omega, eq.symm⟩, fun ⟨i, hi, eq⟩ => ⟨i - 1, ?_, ?_⟩⟩
  · have : i ≤ M / S := (Nat.le_div_iff_mul_le hS).mpr (by omega)
    omega
  · rw [Nat.sub_add_cancel hi, eq]

theorem centres_nodup {M S o : Nat} (hS : 1 ≤ S) : (centres M S o).Nodup :=
  (List.nodup_range.map fun i j h => by
    have eq : (i + 1) * S = (j + 1) * S := Nat.add_right_cancel h
    exact Nat.succ_injective (Nat.eq_of_mul_eq_mul_right hS eq)).filter _

theorem IsCentre.bounds {M S o c : Nat} (h : IsCentre M S o c) : S ≤ c ∧ c + S < M := by
  obtain ⟨⟨i, hi, eq⟩, last⟩ := h
  have := Nat.le_mul_of_pos_left S hi
  omega

/-! #### The scan of one offset (R141) -/

/-- The three samples of the window of centre c are > 0. -/
def positiveWindow (xs : List Int) (S c : Nat) : Bool :=
  decide (xs.getD (c - S) 0 > 0 ∧ xs.getD c 0 > 0 ∧ xs.getD (c + S) 0 > 0)

/-- The three samples of the window of centre c are < 0. -/
def negativeWindow (xs : List Int) (S c : Nat) : Bool :=
  decide (xs.getD (c - S) 0 < 0 ∧ xs.getD c 0 < 0 ∧ xs.getD (c + S) 0 < 0)

/-- A valid centre: all three samples have one sign. -/
def validWindow (xs : List Int) (S c : Nat) : Bool := positiveWindow xs S c || negativeWindow xs S c

section
variable {xs : List Int} {S c : Nat}

theorem positiveWindow_eq_false (h : negativeWindow xs S c = true) : positiveWindow xs S c = false := by
  simp only [negativeWindow, positiveWindow, decide_eq_true_eq, decide_eq_false_iff_not] at *
  omega

theorem negativeWindow_eq_false (h : positiveWindow xs S c = true) : negativeWindow xs S c = false :=
  Bool.eq_false_iff.mpr fun negative => Bool.eq_false_iff.mp (positiveWindow_eq_false negative) h

theorem scanCentre_positive (h : positiveWindow xs S c = true) (l : Levels) :
    scanCentre xs S l c = { l with count := l.count + 1, minHigh := minSeen l.minHigh (xs.getD c 0) } :=
  if_pos (of_decide_eq_true h)

theorem scanCentre_negative (h : negativeWindow xs S c = true) (l : Levels) :
    scanCentre xs S l c = { l with count := l.count + 1, maxLow := maxSeen l.maxLow (xs.getD c 0) } :=
  (if_neg (of_decide_eq_false (positiveWindow_eq_false h))).trans (if_pos (of_decide_eq_true h))

theorem scanCentre_invalid (hp : positiveWindow xs S c = false) (hn : negativeWindow xs S c = false) (l : Levels) :
    scanCentre xs S l c = l :=
  (if_neg (of_decide_eq_false hp)).trans (if_neg (of_decide_eq_false hn))

/-- A scan sees the positive and the negative windows separately, and counts both. -/
theorem foldl_scanCentre (xs : List Int) (S : Nat) (cs : List Nat) (l : Levels) :
    cs.foldl (scanCentre xs S) l =
      { minHigh := ((cs.filter (positiveWindow xs S)).map fun c => xs.getD c 0).foldl minSeen l.minHigh
        maxLow := ((cs.filter (negativeWindow xs S)).map fun c => xs.getD c 0).foldl maxSeen l.maxLow
        count := l.count + (cs.filter (validWindow xs S)).length } := by
  induction cs generalizing l with
  | nil => rfl
  | cons c cs ih =>
    rw [List.foldl_cons, ih]
    cases hp : positiveWindow xs S c with
    | true => simp [scanCentre_positive hp, validWindow, hp, negativeWindow_eq_false hp, Nat.add_assoc, Nat.add_comm 1]
    | false =>
      cases hn : negativeWindow xs S c with
      | true => simp [scanCentre_negative hn, validWindow, hp, hn, Nat.add_assoc, Nat.add_comm 1]
      | false => simp [scanCentre_invalid hp hn, validWindow, hp, hn]

end

/-- The scan of offset o over the X of a state (R141). -/
def State.eyeScan (s : State) (o : Nat) : Levels := scanOffset s.samples s.sps o

section
variable {s : State} {o : Nat}

theorem samples_getD_window {c : Nat} (h : IsCentre s.xlen s.sps o c) :
    s.samples.getD (c - s.sps) 0 = s.x (c - s.sps) ∧ s.samples.getD c 0 = s.x c ∧
      s.samples.getD (c + s.sps) 0 = s.x (c + s.sps) := by
  obtain ⟨-, last⟩ := h.bounds
  exact ⟨samples_getD s (by omega), samples_getD s (by omega), samples_getD s last⟩

theorem mem_filter_positiveWindow (hS : 1 ≤ s.sps) (c : Nat) :
    c ∈ (centres s.xlen s.sps o).filter (positiveWindow s.samples s.sps) ↔ ValidPositive s o c := by
  rw [List.mem_filter, mem_centres hS]
  refine and_congr_right fun hc => ?_
  obtain ⟨before, centre, after⟩ := samples_getD_window hc
  rw [positiveWindow, decide_eq_true_eq, before, centre, after]

theorem mem_filter_negativeWindow (hS : 1 ≤ s.sps) (c : Nat) :
    c ∈ (centres s.xlen s.sps o).filter (negativeWindow s.samples s.sps) ↔ ValidNegative s o c := by
  rw [List.mem_filter, mem_centres hS]
  refine and_congr_right fun hc => ?_
  obtain ⟨before, centre, after⟩ := samples_getD_window hc
  rw [negativeWindow, decide_eq_true_eq, before, centre, after]

theorem mem_filter_validWindow (hS : 1 ≤ s.sps) (c : Nat) :
    c ∈ (centres s.xlen s.sps o).filter (validWindow s.samples s.sps) ↔ ValidPositive s o c ∨ ValidNegative s o c := by
  rw [← mem_filter_positiveWindow hS, ← mem_filter_negativeWindow hS]
  simp only [List.mem_filter, validWindow, Bool.or_eq_true, and_or_left]

/-- What the scan of an offset returns, in the samples of X at its valid centres. -/
theorem eyeScan_eq (hS : 1 ≤ s.sps) :
    s.eyeScan o =
      { minHigh := (((centres s.xlen s.sps o).filter (positiveWindow s.samples s.sps)).map s.x).min?
        maxLow := (((centres s.xlen s.sps o).filter (negativeWindow s.samples s.sps)).map s.x).max?
        count := ((centres s.xlen s.sps o).filter (validWindow s.samples s.sps)).length } := by
  rw [State.eyeScan, scanOffset, foldl_scanCentre, foldl_minSeen_none, foldl_maxSeen_none, samples_length, Nat.zero_add]
  congr 2 <;> refine List.map_congr_left fun c hc => ?_
  · exact (samples_getD_window ((mem_filter_positiveWindow hS c).mp hc).1).2.1
  · exact (samples_getD_window ((mem_filter_negativeWindow hS c).mp hc).1).2.1

theorem eyeScan_minHigh (hS : 1 ≤ s.sps) : LeastOrZero (ValidPositive s o) s.x (orZero (s.eyeScan o).minHigh) := by
  rw [eyeScan_eq hS]
  exact leastOrZero_min? (mem_filter_positiveWindow hS)

theorem eyeScan_maxLow (hS : 1 ≤ s.sps) : GreatestOrZero (ValidNegative s o) s.x (orZero (s.eyeScan o).maxLow) := by
  rw [eyeScan_eq hS]
  exact greatestOrZero_max? (mem_filter_negativeWindow hS)

theorem eyeScan_minHigh_isSome (hS : 1 ≤ s.sps) : (s.eyeScan o).minHigh.isSome = true ↔ ∃ c, ValidPositive s o c := by
  rw [eyeScan_eq hS, List.isSome_min?_iff, ← List.length_pos_iff, List.length_map, List.length_pos_iff_exists_mem]
  exact exists_congr (mem_filter_positiveWindow hS)

theorem eyeScan_maxLow_isSome (hS : 1 ≤ s.sps) : (s.eyeScan o).maxLow.isSome = true ↔ ∃ c, ValidNegative s o c := by
  rw [eyeScan_eq hS, List.isSome_max?_iff, ← List.length_pos_iff, List.length_map, List.length_pos_iff_exists_mem]
  exact exists_congr (mem_filter_negativeWindow hS)

theorem eyeScan_count_pos (hS : 1 ≤ s.sps) :
    0 < (s.eyeScan o).count ↔ ∃ c, ValidPositive s o c ∨ ValidNegative s o c := by
  rw [eyeScan_eq hS, List.length_pos_iff_exists_mem]
  exact exists_congr (mem_filter_validWindow hS)

/-- The centres are distinct, so counting them as they are met counts the set. -/
theorem eyeScan_count (hS : 1 ≤ s.sps) :
    (s.eyeScan o).count = Set.ncard { c | ValidPositive s o c ∨ ValidNegative s o c } := by
  have members : { c | ValidPositive s o c ∨ ValidNegative s o c } =
      ((centres s.xlen s.sps o).filter (validWindow s.samples s.sps)).toFinset := by
    ext c
    rw [List.coe_toFinset]
    exact (mem_filter_validWindow hS c).symm
  rw [members, Set.ncard_coe_finset, List.toFinset_card_of_nodup ((centres_nodup hS).filter _), eyeScan_eq hS]

/-- Every centre has a symbol period of X on both sides (R141). -/
theorem eyeScan_count_le (hS : 1 ≤ s.sps) : (s.eyeScan o).count ≤ s.xlen - 2 * s.sps := by
  have within : { c | ValidPositive s o c ∨ ValidNegative s o c } ⊆ Finset.Ico s.sps (s.xlen - s.sps) := by
    rintro c (⟨hc, -⟩ | ⟨hc, -⟩) <;>
    · obtain ⟨first, last⟩ := hc.bounds
      simp only [Finset.coe_Ico, Set.mem_Ico]
      omega
  calc (s.eyeScan o).count ≤ (Finset.Ico s.sps (s.xlen - s.sps) : Set Nat).ncard := by
        rw [eyeScan_count hS]
        exact Set.ncard_le_ncard within (Finset.finite_toSet _)
    _ = s.xlen - 2 * s.sps := by
        rw [Set.ncard_coe_finset, Nat.card_Ico]
        omega

/-! #### Candidates (R141) -/

/-- The declarative candidates are the offsets whose scan counts a valid centre, with the levels of the scan. -/
theorem eyeCandidate_iff (hS : 1 ≤ s.sps) {hi lo : Int} :
    EyeCandidate s o hi lo ↔
      o < s.sps ∧ 0 < (s.eyeScan o).count ∧ hi = orZero (s.eyeScan o).minHigh ∧ lo = orZero (s.eyeScan o).maxLow := by
  rw [EyeCandidate, eyeScan_count_pos hS]
  refine and_congr_right fun _ => and_congr_right fun _ => ⟨fun ⟨high, low⟩ => ?_, ?_⟩
  · exact ⟨high.unique (eyeScan_minHigh hS), low.unique (eyeScan_maxLow hS)⟩
  · rintro ⟨rfl, rfl⟩
    exact ⟨eyeScan_minHigh hS, eyeScan_maxLow hS⟩

theorem EyeCandidate.levels_range {hi lo : Int} (h : EyeCandidate s o hi lo) :
    (0 ≤ hi ∧ hi ≤ Config.maxw) ∧ Config.minw ≤ lo ∧ lo ≤ 0 := by
  obtain ⟨-, -, high, low⟩ := h
  constructor
  · rcases high.attained with ⟨c, ⟨-, -, pos, -⟩, rfl⟩ | rfl
    · exact ⟨pos.le, (x_range s c).2⟩
    · decide
  · rcases low.attained with ⟨c, ⟨-, -, neg, -⟩, rfl⟩ | rfl
    · exact ⟨(x_range s c).1, neg.le⟩
    · decide

/-- The levels of a candidate survive their words, and its opening its unsigned word (00_scope.md R14). -/
theorem EyeCandidate.words {hi lo : Int} (h : EyeCandidate s o hi lo) :
    ((wordOfInt (hi - lo)).toNat : Int) = hi - lo ∧ (wordOfInt hi).toInt = hi ∧ (wordOfInt lo).toInt = lo := by
  obtain ⟨⟨hi0, hi1⟩, lo0, lo1⟩ := h.levels_range
  unfold Config.maxw at hi1
  unfold Config.minw at lo0
  exact ⟨toNat_wordOfInt (by omega) (by omega), toInt_wordOfInt (by unfold Config.minw; omega) hi1,
    toInt_wordOfInt lo0 (by unfold Config.maxw; omega)⟩

end

/-! #### The search over the offsets (R141) -/

/-- The result of a search that selects offset o. -/
def eyeResultAt (xs : List Int) (S o : Nat) : EyeResult where
  found := true
  best := o
  opening := (scanOffset xs S o).opening
  minHigh := orZero (scanOffset xs S o).minHigh
  maxLow := orZero (scanOffset xs S o).maxLow
  hiSeen := (scanOffset xs S o).minHigh.isSome
  loSeen := (scanOffset xs S o).maxLow.isSome
  count := (scanOffset xs S o).count

/-- The result of a search without a candidate. -/
def defaultEye (S : Nat) : EyeResult where
  found := false
  best := S / 2
  opening := 0
  minHigh := 0
  maxLow := 0
  hiSeen := false
  loSeen := false
  count := 0

/-- Offset o is the lowest of the candidates below n with the largest opening. -/
def WidestBelow (xs : List Int) (S n o : Nat) : Prop :=
  o < n ∧ 0 < (scanOffset xs S o).count ∧
    ∀ p < n, 0 < (scanOffset xs S p).count →
      (scanOffset xs S p).opening ≤ (scanOffset xs S o).opening ∧
        ((scanOffset xs S p).opening = (scanOffset xs S o).opening → o ≤ p)

section
variable {xs : List Int} {S n o : Nat}

theorem searchOffset_of_count_zero (h : (scanOffset xs S n).count = 0) (r : EyeResult) : searchOffset xs S r n = r :=
  if_neg fun better => by omega

theorem searchOffset_defaultEye (h : 0 < (scanOffset xs S n).count) :
    searchOffset xs S (defaultEye S) n = eyeResultAt xs S n :=
  if_pos ⟨h, .inl rfl⟩

theorem searchOffset_wider (h : 0 < (scanOffset xs S n).count)
    (wider : (scanOffset xs S n).opening > (scanOffset xs S o).opening) :
    searchOffset xs S (eyeResultAt xs S o) n = eyeResultAt xs S n :=
  if_pos ⟨h, .inr wider⟩

theorem searchOffset_not_wider (h : (scanOffset xs S n).opening ≤ (scanOffset xs S o).opening) :
    searchOffset xs S (eyeResultAt xs S o) n = eyeResultAt xs S o :=
  if_neg fun ⟨_, better⟩ => better.elim Bool.noConfusion h.not_gt

theorem WidestBelow.first (h : ∀ p < n, (scanOffset xs S p).count = 0) (hn : 0 < (scanOffset xs S n).count) :
    WidestBelow xs S (n + 1) n := by
  refine ⟨n.lt_succ_self, hn, fun p hp count => ?_⟩
  rcases Nat.lt_succ_iff_lt_or_eq.mp hp with hlt | rfl
  · exact absurd (h p hlt) count.ne'
  · exact ⟨le_rfl, fun _ => le_rfl⟩

theorem WidestBelow.moves (h : WidestBelow xs S n o) (hn : 0 < (scanOffset xs S n).count)
    (wider : (scanOffset xs S o).opening < (scanOffset xs S n).opening) : WidestBelow xs S (n + 1) n := by
  obtain ⟨-, -, widest⟩ := h
  refine ⟨n.lt_succ_self, hn, fun p hp count => ?_⟩
  rcases Nat.lt_succ_iff_lt_or_eq.mp hp with hlt | rfl
  · have below := (widest p hlt count).1
    exact ⟨by omega, fun eq => by omega⟩
  · exact ⟨le_rfl, fun _ => le_rfl⟩

theorem WidestBelow.stays (h : WidestBelow xs S n o)
    (hn : 0 < (scanOffset xs S n).count → (scanOffset xs S n).opening ≤ (scanOffset xs S o).opening) :
    WidestBelow xs S (n + 1) o := by
  obtain ⟨below, candidate, widest⟩ := h
  refine ⟨below.trans n.lt_succ_self, candidate, fun p hp count => ?_⟩
  rcases Nat.lt_succ_iff_lt_or_eq.mp hp with hlt | rfl
  · exact widest p hlt count
  · exact ⟨hn count, fun _ => below.le⟩

/-- The invariant of the search: after n offsets it holds the lowest widest candidate below n, or there is none and it holds
the default. -/
theorem foldl_searchOffset (xs : List Int) (S n : Nat) :
    (∃ o, WidestBelow xs S n o ∧ (List.range n).foldl (searchOffset xs S) (defaultEye S) = eyeResultAt xs S o) ∨
      (∀ o < n, (scanOffset xs S o).count = 0) ∧
        (List.range n).foldl (searchOffset xs S) (defaultEye S) = defaultEye S := by
  induction n with
  | zero => exact .inr ⟨fun o h => absurd h o.not_lt_zero, rfl⟩
  | succ n ih =>
    rw [List.range_succ, List.foldl_append, List.foldl_cons, List.foldl_nil]
    rcases Nat.eq_zero_or_pos (scanOffset xs S n).count with zero | candidate
    · rw [searchOffset_of_count_zero zero]
      rcases ih with ⟨o, widest, result⟩ | ⟨empty, result⟩
      · exact .inl ⟨o, widest.stays fun h => absurd zero h.ne', result⟩
      · exact .inr ⟨Nat.forall_lt_succ_right.mpr ⟨empty, zero⟩, result⟩
    · rcases ih with ⟨o, widest, result⟩ | ⟨empty, result⟩
      · rw [result]
        rcases lt_or_ge (scanOffset xs S o).opening (scanOffset xs S n).opening with wider | narrower
        · exact .inl ⟨n, widest.moves candidate wider, searchOffset_wider candidate wider⟩
        · exact .inl ⟨o, widest.stays fun _ => narrower, searchOffset_not_wider narrower⟩
      · rw [result]
        exact .inl ⟨n, .first empty candidate, searchOffset_defaultEye candidate⟩

theorem eyeSearch_cases (xs : List Int) (S : Nat) :
    (∃ o, WidestBelow xs S S o ∧ eyeSearch xs S = eyeResultAt xs S o) ∨
      (∀ o < S, (scanOffset xs S o).count = 0) ∧ eyeSearch xs S = defaultEye S :=
  foldl_searchOffset xs S S

theorem eyeSearch_best_lt (xs : List Int) (hS : 1 ≤ S) : (eyeSearch xs S).best < S := by
  rcases eyeSearch_cases xs S with ⟨o, ⟨below, -⟩, result⟩ | ⟨-, result⟩
  · rw [result]
    exact below
  · rw [result]
    exact Nat.div_lt_self hS Nat.one_lt_two

end

/-! #### EYESRCH (R142) -/

theorem checksAre_eyesrch : ChecksAre .eyesrch SpsOutside XlenOver Never :=
  fun s => firstError_iff (badSps_iff s) (badXlen_iff s) Bool.false_eq_true.to_iff

theorem eyesrchEffect_finish_regs (s : State) :
    (eyesrchEffect s).finish.regs = s.regs.withEye (eyeSearch s.samples s.sps) := rfl

/-- The offset found is below SPS, so it survives its register. -/
theorem eyesrchEffect_finish_bestOff {s : State} (hS : 1 ≤ s.sps) :
    (eyesrchEffect s).finish.bestOff = (eyeSearch s.samples s.sps).best := by
  have best := eyeSearch_best_lt s.samples hS
  have sps : s.sps < 128 := s.regs.sps.isLt
  rw [State.bestOff, eyesrchEffect_finish_regs, Regs.withEye_bestOff, BitVec.toNat_ofNat, Nat.mod_eq_of_lt (by omega)]

/-- Settles O38: the search keeps the lowest widest candidate, and levels, opening and count survive their fields. -/
theorem eyesrchPicksTheWidestEye : Obligations.EyesrchPicksTheWidestEye := by
  refine ⟨checksAre_eyesrch, fun s hacc => ?_⟩
  have hS : 1 ≤ s.sps := one_le_sps_of_accepted (by simp [ReadsSps]) hacc
  have hM : s.xlen ≤ 4096 := xlen_le_of_accepted (by simp [ReadsX]) hacc
  refine ⟨(eyesrchEffect s).finish, exec_busy hacc.1,
    (effect_completes .eyesrch s).congr Bool.false_eq_true.to_iff decide_eq_true_iff, keepsMemories_of_regs rfl, rfl, ?_⟩
  rw [eyesrchEffect_finish_bestOff hS, eyesrchEffect_finish_regs]
  rcases eyeSearch_cases s.samples s.sps with ⟨o, ⟨below, count, widest⟩, result⟩ | ⟨empty, result⟩
  case inl =>
    have candidate : EyeCandidate s o (orZero (s.eyeScan o).minHigh) (orZero (s.eyeScan o).maxLow) :=
      (eyeCandidate_iff hS).mpr ⟨below, count, rfl, rfl⟩
    obtain ⟨opening, high, low⟩ := candidate.words
    have vcnt : (s.eyeScan o).count < 8192 := by
      have := eyeScan_count_le (o := o) hS
      omega
    rw [result]
    refine .inl ⟨_, _, candidate, opening, high, low, rfl, eyeScan_minHigh_isSome hS, eyeScan_maxLow_isSome hS, ?_,
      fun p hi lo other => ?_⟩
    · exact (Nat.mod_eq_of_lt vcnt).trans (eyeScan_count hS)
    · obtain ⟨hp, counted, rfl, rfl⟩ := (eyeCandidate_iff hS).mp other
      exact widest p hp counted
  case inr =>
    rw [result]
    refine .inr ⟨fun o c ho => not_or.mp fun valid => ?_, rfl, rfl, rfl, rfl, rfl⟩
    exact absurd (empty o ho) ((eyeScan_count_pos hS).mpr ⟨c, valid⟩).ne'

/-! #### The downsampler (R143) -/

section
variable {xs : List Int} {S b : Nat}

theorem downsample_of_lt (h : xs.length < S) : downsample xs S b = xs := if_pos h

theorem downsample_of_le (h : S ≤ xs.length) :
    downsample xs S b = (List.range (xs.length / S)).map fun i => xs.getD (i * S + b) 0 := if_neg (Nat.not_lt.mpr h)

theorem downsample_length_le : (downsample xs S b).length ≤ xs.length := by
  unfold downsample
  split
  · exact le_rfl
  · simpa using Nat.div_le_self _ _

/-- The largest index read is below the length (R143). -/
theorem downsample_index_lt {M i : Nat} (hi : i < M / S) (hb : b < S) : i * S + b < M :=
  calc i * S + b < (i + 1) * S := by rw [Nat.succ_mul]; omega
    _ ≤ M / S * S := Nat.mul_le_mul_right S hi
    _ ≤ M := Nat.div_mul_le_self M S

end

/-- A completion that stores the downsampled X of `s`, whatever registers were written before (R143). -/
theorem finish_downsample {s u : State} {c : Completion} {b : Nat}
    (h : c.state = u.writeY ((downsample s.samples s.sps b).map wordOfInt)) (hb : b < s.sps) (hM : s.xlen ≤ 4096) :
    (s.xlen < s.sps → c.finish.ylen = s.xlen ∧ ∀ i, i < s.xlen → c.finish.yWord i = s.xWord i) ∧
      (s.sps ≤ s.xlen → c.finish.ylen = s.xlen / s.sps ∧
        ∀ i, i < s.xlen / s.sps → c.finish.yWord i = s.xWord (i * s.sps + b)) := by
  have fits : ((downsample s.samples s.sps b).map wordOfInt).length < 8192 := by
    have := downsample_length_le (xs := s.samples) (S := s.sps) (b := b)
    rw [samples_length] at this
    rw [List.length_map]
    omega
  have ylen := finish_ylen h fits
  refine ⟨fun short => ?_, fun long => ?_⟩
  · rw [downsample_of_lt (by simpa using short)] at h ylen
    refine ⟨by simpa using ylen, fun i hi => ?_⟩
    rw [finish_yWord h (by simpa using hi), List.getElem_map, samples_getElem]
    exact wordOfInt_toInt _
  · rw [downsample_of_le (by simpa using long), samples_length] at h ylen
    refine ⟨by simpa using ylen, fun i hi => ?_⟩
    rw [finish_yWord h (by simpa using hi), List.getElem_map, List.getElem_map, List.getElem_range,
      samples_getD s (downsample_index_lt hi hb)]
    exact wordOfInt_toInt _

/-! #### DECIM (R144) -/

theorem checksAre_decim : ChecksAre .decim (fun s => SpsOutside s ∨ s.bestOff ≥ s.sps) XlenOver Never :=
  fun s => firstError_iff (by simp [SpsOutside]) (badXlen_iff s) Bool.false_eq_true.to_iff

theorem bestOff_lt_of_accepted {s : State} (h : Accepted .decim s) : s.bestOff < s.sps := by
  obtain ⟨-, -, -, accepted⟩ := checksAre_decim s
  obtain ⟨cfg, -, -⟩ := accepted.mp h.2
  exact Nat.not_le.mp fun outside => cfg (.inr outside)

/-- Settles O39: the acceptance checks keep every index read below XLEN. -/
theorem decimTakesOneSamplePerSymbol : Obligations.DecimTakesOneSamplePerSymbol := by
  refine ⟨checksAre_decim, fun s hacc => ?_⟩
  exact ⟨(decimEffect s).finish, exec_busy hacc.1,
    (effect_completes .decim s).congr Bool.false_eq_true.to_iff decide_eq_true_iff,
    keepsAllButY_of_writeY (g := s.regs) rfl, finish_regs_writeY rfl,
    finish_downsample rfl (bestOff_lt_of_accepted hacc) (xlen_le_of_accepted (by simp [ReadsX]) hacc)⟩

/-! #### RECOVER (R145) -/

theorem checksAre_recover : ChecksAre .recover SpsOutside XlenOver Never :=
  fun s => firstError_iff (badSps_iff s) (badXlen_iff s) Bool.false_eq_true.to_iff

/-- Settles O40: RECOVER has the checks of EYESRCH, stores into the state EYESRCH leaves, and the offset found is below
SPS. -/
theorem recoverSearchesThenDownsamples : Obligations.RecoverSearchesThenDownsamples := by
  refine ⟨checksAre_recover, fun s hacc => ?_⟩
  have hS : 1 ≤ s.sps := one_le_sps_of_accepted (by simp [ReadsSps]) hacc
  refine ⟨(recoverEffect s).finish, (eyesrchEffect s).finish, exec_busy hacc.1, exec_busy hacc.1, hacc,
    (effect_completes .recover s).congr Bool.false_eq_true.to_iff decide_eq_true_iff,
    keepsAllButY_of_writeY (g := s.searched.regs) rfl, finish_regs_writeY (s := s.searched) rfl, ?_⟩
  rw [eyesrchEffect_finish_bestOff hS]
  exact finish_downsample rfl (eyeSearch_best_lt _ hS) (xlen_le_of_accepted (by simp [ReadsX]) hacc)

end Sys2Proof.Machine

end

/-! ### The eye-opening metrics (44_eye_metrics.md R151) -/

section

namespace Sys2Proof.Machine

/-! #### The levels of one offset -/

theorem mem_offsetIndices {M S o c : Nat} (hS : 1 ≤ S) : c ∈ offsetIndices M S o ↔ IsOffsetSample M S o c := by
  simp only [offsetIndices, List.mem_filter, List.mem_map, List.mem_range, decide_eq_true_eq, IsOffsetSample]
  refine and_congr_left fun hc => ⟨fun ⟨i, _, eq⟩ => ⟨i, eq.symm⟩, fun ⟨i, eq⟩ => ⟨i, ?_, eq.symm⟩⟩
  exact Nat.lt_succ_of_le ((Nat.le_div_iff_mul_le hS).mpr (by omega))

/-- Sample c is high (R151). -/
def isHigh (xs : List Int) (c : Nat) : Bool := decide (xs.getD c 0 > 0)

section
variable {xs : List Int} {c : Nat}

theorem metricSample_high (h : isHigh xs c = true) (l : Levels) :
    metricSample xs l c = { l with count := l.count + 1, minHigh := minSeen l.minHigh (xs.getD c 0) } :=
  if_pos (of_decide_eq_true h)

theorem metricSample_low (h : isHigh xs c = false) (l : Levels) :
    metricSample xs l c = { l with count := l.count + 1, maxLow := maxSeen l.maxLow (xs.getD c 0) } :=
  if_neg (of_decide_eq_false h)

/-- Every sample is in exactly one of the two groups, and each group keeps its own extreme. -/
theorem foldl_metricSample (xs : List Int) (cs : List Nat) (l : Levels) :
    cs.foldl (metricSample xs) l =
      { minHigh := ((cs.filter (isHigh xs)).map fun c => xs.getD c 0).foldl minSeen l.minHigh
        maxLow := ((cs.filter fun c => !isHigh xs c).map fun c => xs.getD c 0).foldl maxSeen l.maxLow
        count := l.count + cs.length } := by
  induction cs generalizing l with
  | nil => rfl
  | cons c cs ih =>
    rw [List.foldl_cons, ih]
    cases h : isHigh xs c with
    | true => simp [metricSample_high h, h, Nat.add_assoc, Nat.add_comm 1]
    | false => simp [metricSample_low h, h, Nat.add_assoc, Nat.add_comm 1]

end

/-- The levels of offset o over the X of a state (R151). -/
def State.metricScan (s : State) (o : Nat) : Levels := metricOffset s.samples s.sps o

section
variable {s : State} {o : Nat}

theorem isHigh_samples {c : Nat} (h : IsOffsetSample s.xlen s.sps o c) :
    isHigh s.samples c = decide (s.x c > 0) := by
  rw [isHigh, samples_getD s h.2]

theorem mem_filter_isHigh (hS : 1 ≤ s.sps) (c : Nat) :
    c ∈ (offsetIndices s.xlen s.sps o).filter (isHigh s.samples) ↔
      IsOffsetSample s.xlen s.sps o c ∧ s.x c > 0 := by
  rw [List.mem_filter, mem_offsetIndices hS]
  exact and_congr_right fun hc => by rw [isHigh_samples hc, decide_eq_true_eq]

theorem mem_filter_not_isHigh (hS : 1 ≤ s.sps) (c : Nat) :
    c ∈ ((offsetIndices s.xlen s.sps o).filter fun c => !isHigh s.samples c) ↔
      IsOffsetSample s.xlen s.sps o c ∧ s.x c ≤ 0 := by
  rw [List.mem_filter, mem_offsetIndices hS]
  exact and_congr_right fun hc => by rw [isHigh_samples hc, Bool.not_eq_true', decide_eq_false_iff_not, not_lt]

/-- What the scan of an offset returns, in the samples of X. -/
theorem metricScan_eq (hS : 1 ≤ s.sps) :
    s.metricScan o =
      { minHigh := (((offsetIndices s.xlen s.sps o).filter (isHigh s.samples)).map s.x).min?
        maxLow := (((offsetIndices s.xlen s.sps o).filter fun c => !isHigh s.samples c).map s.x).max?
        count := (offsetIndices s.xlen s.sps o).length } := by
  rw [State.metricScan, metricOffset, foldl_metricSample, foldl_minSeen_none, foldl_maxSeen_none, samples_length,
    Nat.zero_add]
  congr 2 <;> refine List.map_congr_left fun c hc => samples_getD s ?_
  · exact ((mem_filter_isHigh hS c).mp hc).1.2
  · exact ((mem_filter_not_isHigh hS c).mp hc).1.2

theorem metricLevels_metricScan (hS : 1 ≤ s.sps) :
    MetricLevels s o (orZero (s.metricScan o).minHigh) (orZero (s.metricScan o).maxLow) := by
  rw [metricScan_eq hS]
  exact ⟨leastOrZero_min? (mem_filter_isHigh hS), greatestOrZero_max? (mem_filter_not_isHigh hS)⟩

theorem MetricLevels.opening_eq {hi lo : Int} (hS : 1 ≤ s.sps) (h : MetricLevels s o hi lo) :
    hi - lo = (s.metricScan o).opening := by
  obtain ⟨high, low⟩ := h
  obtain ⟨scanHigh, scanLow⟩ := metricLevels_metricScan (o := o) hS
  rw [high.unique scanHigh, low.unique scanLow, Levels.opening]

theorem MetricLevels.levels_range {hi lo : Int} (h : MetricLevels s o hi lo) :
    (0 ≤ hi ∧ hi ≤ Config.maxw) ∧ Config.minw ≤ lo ∧ lo ≤ 0 := by
  obtain ⟨high, low⟩ := h
  constructor
  · rcases high.attained with ⟨c, ⟨-, pos⟩, rfl⟩ | rfl
    · exact ⟨pos.le, (x_range s c).2⟩
    · decide
  · rcases low.attained with ⟨c, ⟨-, nonpos⟩, rfl⟩ | rfl
    · exact ⟨(x_range s c).1, nonpos⟩
    · decide

/-- The levels of an offset survive their words, and its opening its unsigned word (00_scope.md R14). -/
theorem MetricLevels.words {hi lo : Int} (h : MetricLevels s o hi lo) :
    ((wordOfInt (hi - lo)).toNat : Int) = hi - lo ∧ (wordOfInt hi).toInt = hi ∧ (wordOfInt lo).toInt = lo := by
  obtain ⟨⟨hi0, hi1⟩, lo0, lo1⟩ := h.levels_range
  refine ⟨toNat_wordOfInt ?_ ?_, toInt_wordOfInt ?_ hi1, toInt_wordOfInt lo0 ?_⟩ <;>
  · unfold Config.maxw Config.minw at *
    omega

end

/-! #### The metrics over the offsets -/

/-- `r` holds the metrics of the offsets below n: the lowest offset of the largest opening with that opening and its levels,
and the least opening. -/
structure MetricsBelow (xs : List Int) (S n : Nat) (r : EyeMetrics) : Prop where
  best_lt : r.best < n
  maxOpen_eq : r.maxOpen = (metricOffset xs S r.best).opening
  minHigh_eq : r.minHigh = orZero (metricOffset xs S r.best).minHigh
  maxLow_eq : r.maxLow = orZero (metricOffset xs S r.best).maxLow
  le_maxOpen : ∀ p < n, (metricOffset xs S p).opening ≤ r.maxOpen
  lt_maxOpen : ∀ p < r.best, (metricOffset xs S p).opening < r.maxOpen
  minOpen_le : ∀ p < n, r.minOpen ≤ (metricOffset xs S p).opening
  minOpen_attained : ∃ p < n, r.minOpen = (metricOffset xs S p).opening

/-- The metrics of offset 0 alone. -/
def firstMetrics (xs : List Int) (S : Nat) : EyeMetrics where
  best := 0
  maxOpen := (metricOffset xs S 0).opening
  minOpen := (metricOffset xs S 0).opening
  minHigh := orZero (metricOffset xs S 0).minHigh
  maxLow := orZero (metricOffset xs S 0).maxLow

section
variable {xs : List Int} {S n : Nat} {r : EyeMetrics}

theorem metricStep_wider (h : (metricOffset xs S n).opening > r.maxOpen) :
    metricStep xs S r n =
      { best := n, maxOpen := (metricOffset xs S n).opening, minOpen := min r.minOpen (metricOffset xs S n).opening
        minHigh := orZero (metricOffset xs S n).minHigh, maxLow := orZero (metricOffset xs S n).maxLow } :=
  if_pos h

theorem metricStep_not_wider (h : (metricOffset xs S n).opening ≤ r.maxOpen) :
    metricStep xs S r n = { r with minOpen := min r.minOpen (metricOffset xs S n).opening } :=
  if_neg h.not_gt

theorem metricsBelow_firstMetrics (xs : List Int) (S : Nat) : MetricsBelow xs S 1 (firstMetrics xs S) where
  best_lt := Nat.one_pos
  maxOpen_eq := rfl
  minHigh_eq := rfl
  maxLow_eq := rfl
  le_maxOpen p hp := by rw [Nat.lt_one_iff.mp hp]; exact le_rfl
  lt_maxOpen p hp := absurd hp p.not_lt_zero
  minOpen_le p hp := by rw [Nat.lt_one_iff.mp hp]; exact le_rfl
  minOpen_attained := ⟨0, Nat.one_pos, rfl⟩

/-- The running least opening after one more offset, whatever becomes of the best one. -/
theorem MetricsBelow.min_opening (h : MetricsBelow xs S n r) :
    (∀ p < n + 1, min r.minOpen (metricOffset xs S n).opening ≤ (metricOffset xs S p).opening) ∧
      ∃ p < n + 1, min r.minOpen (metricOffset xs S n).opening = (metricOffset xs S p).opening := by
  obtain ⟨q, hq, attained⟩ := h.minOpen_attained
  refine ⟨Nat.forall_lt_succ_right.mpr ⟨fun p hp => (min_le_left _ _).trans (h.minOpen_le p hp), min_le_right _ _⟩, ?_⟩
  rcases min_choice r.minOpen (metricOffset xs S n).opening with old | new
  · exact ⟨q, hq.trans n.lt_succ_self, old.trans attained⟩
  · exact ⟨n, n.lt_succ_self, new⟩

theorem MetricsBelow.step (h : MetricsBelow xs S n r) : MetricsBelow xs S (n + 1) (metricStep xs S r n) := by
  obtain ⟨least, attained⟩ := h.min_opening
  rcases lt_or_ge r.maxOpen (metricOffset xs S n).opening with wider | narrower
  · have below : ∀ p < n, (metricOffset xs S p).opening < (metricOffset xs S n).opening :=
      fun p hp => (h.le_maxOpen p hp).trans_lt wider
    rw [metricStep_wider wider]
    exact { best_lt := n.lt_succ_self, maxOpen_eq := rfl, minHigh_eq := rfl, maxLow_eq := rfl
            le_maxOpen := Nat.forall_lt_succ_right.mpr ⟨fun p hp => (below p hp).le, le_rfl⟩
            lt_maxOpen := below, minOpen_le := least, minOpen_attained := attained }
  · rw [metricStep_not_wider narrower]
    exact { h with
            best_lt := h.best_lt.trans n.lt_succ_self
            le_maxOpen := Nat.forall_lt_succ_right.mpr ⟨h.le_maxOpen, narrower⟩
            minOpen_le := least, minOpen_attained := attained }

theorem metricsBelow_foldl (xs : List Int) (S n : Nat) :
    MetricsBelow xs S (n + 1) ((List.range' 1 n).foldl (metricStep xs S) (firstMetrics xs S)) := by
  induction n with
  | zero => exact metricsBelow_firstMetrics xs S
  | succ n ih =>
    rw [List.range'_1_concat, List.foldl_append, List.foldl_cons, List.foldl_nil, Nat.add_comm 1 n]
    exact ih.step

theorem metricsBelow_eyeMetrics (xs : List Int) (hS : 1 ≤ S) : MetricsBelow xs S S (eyeMetrics xs S) := by
  have all := metricsBelow_foldl xs S (S - 1)
  rwa [Nat.sub_add_cancel hS] at all

end

/-! #### EYEMET -/

theorem checksAre_eyemet : ChecksAre .eyemet SpsOutside XlenOver Never :=
  fun s => firstError_iff (badSps_iff s) (badXlen_iff s) Bool.false_eq_true.to_iff

theorem eyemetEffect_finish_regs (s : State) :
    (eyemetEffect s).finish.regs = s.regs.withMetrics (eyeMetrics s.samples s.sps) := rfl

/-- The best offset is below SPS, so it survives its register. -/
theorem withMetrics_emBestOff_toNat (s : State) {r : EyeMetrics} (h : r.best < s.sps) :
    (s.regs.withMetrics r).emBestOff.toNat = r.best := by
  have sps : s.sps < 128 := s.regs.sps.isLt
  rw [Regs.withMetrics_emBestOff, BitVec.toNat_ofNat, Nat.mod_eq_of_lt (by omega)]

/-- The metrics of all offsets survive their words, in the samples of X. -/
theorem MetricsBelow.words {s : State} {r : EyeMetrics} (hS : 1 ≤ s.sps) (h : MetricsBelow s.samples s.sps s.sps r) :
    MetricLevels s r.best r.minHigh r.maxLow ∧ r.maxOpen = r.minHigh - r.maxLow ∧
      ((wordOfInt r.maxOpen).toNat : Int) = r.maxOpen ∧ (wordOfInt r.minHigh).toInt = r.minHigh ∧
      (wordOfInt r.maxLow).toInt = r.maxLow ∧ ((wordOfInt r.minOpen).toNat : Int) = r.minOpen := by
  have levels : MetricLevels s r.best r.minHigh r.maxLow := by
    rw [h.minHigh_eq, h.maxLow_eq]
    exact metricLevels_metricScan hS
  have maxOpen : r.maxOpen = r.minHigh - r.maxLow := h.maxOpen_eq.trans (levels.opening_eq hS).symm
  obtain ⟨opening, high, low⟩ := levels.words
  obtain ⟨p, -, minOpen⟩ := h.minOpen_attained
  obtain ⟨least, -, -⟩ := (metricLevels_metricScan (s := s) (o := p) hS).words
  rw [minOpen, maxOpen]
  exact ⟨levels, rfl, opening, high, low, least⟩

/-- Settles O41: the fold over the offsets keeps the lowest widest offset and the least opening, and every metric survives
its register. -/
theorem eyemetReportsAllOffsets : Obligations.EyemetReportsAllOffsets := by
  refine ⟨checksAre_eyemet, fun s hacc => ?_⟩
  have hS : 1 ≤ s.sps := one_le_sps_of_accepted (by simp [ReadsSps]) hacc
  have metrics := metricsBelow_eyeMetrics s.samples hS
  obtain ⟨levels, maxOpen, maxWord, high, low, minWord⟩ := metrics.words hS
  refine ⟨(eyemetEffect s).finish, (eyeMetrics s.samples s.sps).minHigh, (eyeMetrics s.samples s.sps).maxLow,
    exec_busy hacc.1, (effect_completes .eyemet s).congr Bool.false_eq_true.to_iff decide_eq_true_iff,
    keepsMemories_of_regs rfl, rfl, ?_⟩
  rw [eyemetEffect_finish_regs, withMetrics_emBestOff_toNat s metrics.best_lt, Regs.withMetrics_emMaxOpen,
    Regs.withMetrics_emMinOpen, maxWord, minWord, ← maxOpen]
  refine ⟨metrics.best_lt, levels, rfl, high, low, fun o hi lo ho other => ?_, ?_⟩
  · rw [other.opening_eq hS]
    exact ⟨metrics.le_maxOpen o ho, metrics.lt_maxOpen o, metrics.minOpen_le o ho⟩
  · obtain ⟨o, ho, attained⟩ := metrics.minOpen_attained
    exact ⟨o, _, _, ho, metricLevels_metricScan hS, attained⟩

end Sys2Proof.Machine

end

/-! ### The decoder (45_decoder.md R161 to R170) -/

section

namespace Sys2Proof.Machine

/-! #### The acceptance checks (60_exceptions.md R184) -/

theorem checksAre_decision {i : Instr} (hi : i = .thresh ∨ i = .decideBits ∨ i = .decodeBits) :
    ChecksAre i Never XlenOver Never := by
  intro s
  rcases hi with rfl | rfl | rfl
  all_goals exact firstError_iff Bool.false_eq_true.to_iff (badXlen_iff s) Bool.false_eq_true.to_iff

theorem checksAre_bresize : ChecksAre .bresize Never (fun s => s.tlen > 4096) Never :=
  fun _ => firstError_iff Bool.false_eq_true.to_iff decide_eq_true_iff Bool.false_eq_true.to_iff

theorem tlen_le_of_accepted {s : State} (h : Accepted .bresize s) : s.tlen ≤ 4096 := by
  obtain ⟨-, -, -, accepted⟩ := checksAre_bresize s
  obtain ⟨-, len, -⟩ := accepted.mp h.2
  exact Nat.not_lt.mp len

/-! #### The completions -/

/-- The flags of the three commands that look at decision values (R161, R168, R169). -/
theorem decision_completes {i : Instr} (hi : i = .thresh ∨ i = .decideBits ∨ i = .decodeBits) (s : State) :
    Completes s (effectOf i s).finish (AbsSaturation s) (s.xlen = 0) := by
  have short : (effectOf i s).short = (s.xlen == 0) := by rcases hi with rfl | rfl | rfl <;> rfl
  refine (effect_completes i s).congr ?_ ?_
  · rw [effectOf_saturated_of_sabs hi, absSaturates_iff]
  · rw [short, beq_iff_eq]

/-- Everything a completion that stores `bs` in B does besides the flags (10_state.md R44, R57). -/
theorem finish_writeB {s : State} {c : Completion} {bs : List Bool} (h : c.state = s.writeB bs)
    (hlen : bs.length < 8192) :
    KeepsAllButB s c.finish ∧ c.finish.regs = { s.regs with blen := c.finish.regs.blen } ∧
      c.finish.blen = bs.length ∧ ∀ n (hn : n < bs.length), c.finish.bBit n = bs[n] := by
  refine ⟨keepsAllButB_of_writeB (g := s.regs) h, finish_regs_writeB h, ?_, fun _ => finish_bBit h⟩
  simp [State.blen, h, Nat.mod_eq_of_lt hlen]

/-! #### The data of the clustering (R161) -/

theorem mem_magnitudes {s : State} {v : Int} : v ∈ s.magnitudes ↔ ∃ i, i < s.xlen ∧ decisionValue s i = v := by
  simp [magnitudes_eq]

theorem magnitudes_range {s : State} {v : Int} (h : v ∈ s.magnitudes) : Config.minw ≤ v ∧ v ≤ Config.maxw := by
  obtain ⟨i, -, rfl⟩ := mem_magnitudes.mp h
  obtain ⟨low, high⟩ := x_range s i
  unfold decisionValue
  split
  · obtain ⟨nonneg, fits⟩ := sabs_range low high
    exact ⟨le_trans (by decide) nonneg, fits⟩
  · exact ⟨low, high⟩

theorem leastOf_eq {vs : List Int} {mn : Int} (h : IsLeast { v | v ∈ vs } mn) : leastOf vs = mn := by
  have least : vs.min? = some mn := List.min?_eq_some_iff.mpr h
  cases vs with
  | nil => cases least
  | cons v vs => exact Option.some_inj.mp (List.min?_cons'.symm.trans least)

theorem greatestOf_eq {vs : List Int} {mx : Int} (h : IsGreatest { v | v ∈ vs } mx) : greatestOf vs = mx := by
  have greatest : vs.max? = some mx := List.max?_eq_some_iff.mpr h
  cases vs with
  | nil => cases greatest
  | cons v vs => exact Option.some_inj.mp (List.max?_cons'.symm.trans greatest)

/-! #### One iteration of 2-means (R162) -/

/-- The centre of a cluster of listed values is the mean over the cluster's indices. -/
theorem newCentre_eq_clusterMean (old : Int) (v : Nat → Int) (N : Nat) (p : Int → Bool) :
    newCentre old (((List.range N).map v).filter p) =
      clusterMean v ((Finset.range N).filter fun i => p (v i) = true) old := by
  have cluster : (Finset.range N).filter (fun i => p (v i) = true) = ((List.range N).filter (p ∘ v)).toFinset := by
    rw [List.toFinset_filter, List.toFinset_range]
    rfl
  have distinct : ((List.range N).filter (p ∘ v)).Nodup := List.nodup_range.filter _
  rw [clusterMean, cluster, List.toFinset_card_of_nodup distinct, List.sum_toFinset v distinct, newCentre,
    List.filter_map, List.length_map]
  rcases Nat.eq_zero_or_pos ((List.range N).filter (p ∘ v)).length with empty | pos
  · rw [if_neg (by omega), if_pos empty]
  · rw [if_pos pos, if_neg (by omega)]

theorem nearLow_iff (a b v : Int) : nearLow a b v = true ↔ |v - a| ≤ |v - b| := by
  rw [nearLow, decide_eq_true_iff, Int.abs_eq_natAbs, Int.abs_eq_natAbs, Int.ofNat_le]

theorem newCentres_eq_nextCentres (s : State) (c : Int × Int) :
    newCentres s.magnitudes c.1 c.2 = nextCentres (decisionValue s) s.xlen c := by
  rw [newCentres, magnitudes_eq, newCentre_eq_clusterMean, newCentre_eq_clusterMean]
  simp only [nextCentres, Bool.not_eq_true', ← Bool.not_eq_true, nearLow_iff]

/-- Both centres lie between `lo` and `hi`. -/
def CentresBetween (lo hi : Int) (c : Int × Int) : Prop := (lo ≤ c.1 ∧ c.1 ≤ hi) ∧ lo ≤ c.2 ∧ c.2 ≤ hi

/-- The starting centres, a quarter of the range in from either end. -/
def quarterPositions (mn mx : Int) : Int × Int := (mn + (mx - mn) / 4, mn + 3 * (mx - mn) / 4)

theorem quarterPositions_between {mn mx lo hi : Int} (hlo : lo ≤ mn) (h : mn ≤ mx) (hhi : mx ≤ hi) :
    CentresBetween lo hi (quarterPositions mn mx) := by
  unfold CentresBetween quarterPositions
  omega

section
variable {vs : List Int} {lo hi : Int}

theorem newCentre_between {old : Int} (hold : lo ≤ old ∧ old ≤ hi) (hvs : ∀ v ∈ vs, lo ≤ v ∧ v ≤ hi) :
    lo ≤ newCentre old vs ∧ newCentre old vs ≤ hi := by
  unfold newCentre
  split
  · next pos => exact tdiv_sum_between (List.length_pos_iff.mp pos) hvs
  · exact hold

theorem CentresBetween.newCentres {c : Int × Int} (h : CentresBetween lo hi c) (hvs : ∀ v ∈ vs, lo ≤ v ∧ v ≤ hi) :
    CentresBetween lo hi (newCentres vs c.1 c.2) :=
  ⟨newCentre_between h.1 fun v hv => hvs v (List.mem_of_mem_filter hv),
    newCentre_between h.2 fun v hv => hvs v (List.mem_of_mem_filter hv)⟩

end

/-! #### The loop of 2-means (R162) -/

/-- The loop over the centres `c 0`, `c 1`, ... ends after `k` of at most `maxit` iterations: at the first that settles,
with `conv`, or when all are used up. -/
structure StopsAt (eps maxit : Nat) (c : Nat → Int × Int) (k : Nat) (conv : Bool) : Prop where
  le_maxit : k ≤ maxit
  unsettled : ∀ j, j + 1 < k → ¬Settled eps (c j) (c (j + 1))
  conv_iff : conv = true ↔ 1 ≤ k ∧ Settled eps (c (k - 1)) (c k)
  used_up : conv = false → k = maxit

section
variable {vs : List Int} {eps maxit k : Nat} {conv : Bool} {c : Nat → Int × Int}

theorem StopsAt.none_left (eps : Nat) (c : Nat → Int × Int) : StopsAt eps 0 c 0 false where
  le_maxit := le_rfl
  unsettled := fun _ h => absurd h (Nat.not_lt_zero _)
  conv_iff := by simp
  used_up := fun _ => rfl

theorem StopsAt.settled (h : Settled eps (c 0) (c 1)) : StopsAt eps (maxit + 1) c 1 true where
  le_maxit := by omega
  unsettled := fun _ h => by omega
  conv_iff := by simpa using h
  used_up := fun h => Bool.noConfusion h

/-- An iteration that does not settle comes before the rest of the loop. -/
theorem StopsAt.succ (h : ¬Settled eps (c 0) (c 1)) (rest : StopsAt eps maxit (fun j => c (j + 1)) k conv) :
    StopsAt eps (maxit + 1) c (k + 1) conv where
  le_maxit := Nat.succ_le_succ rest.le_maxit
  unsettled := fun j hj => by
    cases j with
    | zero => exact h
    | succ j => exact rest.unsettled j (by omega)
  conv_iff := by
    rw [rest.conv_iff]
    cases k with
    | zero => simp [h]
    | succ k => simp
  used_up := fun hc => congrArg Nat.succ (rest.used_up hc)

theorem settled_iff_natAbs (eps : Nat) (c d : Int × Int) :
    (d.1 - c.1).natAbs < eps ∧ (d.2 - c.2).natAbs < eps ↔ Settled eps c d := by
  rw [Settled, Int.abs_eq_natAbs, Int.abs_eq_natAbs, Int.ofNat_lt, Int.ofNat_lt]

theorem clusterLoop_of_settled {c : Int × Int} (h : Settled eps c (newCentres vs c.1 c.2)) (left iters : Nat) :
    clusterLoop vs eps (left + 1) c.1 c.2 iters =
      { c0 := (newCentres vs c.1 c.2).1, c1 := (newCentres vs c.1 c.2).2, iters := iters + 1, conv := true } :=
  if_pos ((settled_iff_natAbs _ _ _).mpr h)

theorem clusterLoop_of_not_settled {c : Int × Int} (h : ¬Settled eps c (newCentres vs c.1 c.2)) (left iters : Nat) :
    clusterLoop vs eps (left + 1) c.1 c.2 iters =
      clusterLoop vs eps left (newCentres vs c.1 c.2).1 (newCentres vs c.1 c.2).2 (iters + 1) :=
  if_neg (mt (settled_iff_natAbs _ _ _).mp h)

/-- The loop, started at `c 0`, ends with the centres of the iteration it stops at. -/
theorem clusterLoop_eq (hc : ∀ n, c (n + 1) = newCentres vs (c n).1 (c n).2) (eps left iters : Nat) :
    ∃ k conv, StopsAt eps left c k conv ∧
      clusterLoop vs eps left (c 0).1 (c 0).2 iters =
        { c0 := (c k).1, c1 := (c k).2, iters := iters + k, conv := conv } := by
  induction left generalizing c iters with
  | zero => exact ⟨0, false, .none_left eps c, rfl⟩
  | succ left ih =>
    by_cases settled : Settled eps (c 0) (c 1)
    · refine ⟨1, true, .settled settled, ?_⟩
      rw [hc 0] at settled ⊢
      exact clusterLoop_of_settled settled left iters
    · obtain ⟨k, conv, stops, loop⟩ := ih (c := fun j => c (j + 1)) (fun n => hc (n + 1)) (iters + 1)
      refine ⟨k + 1, conv, stops.succ settled, ?_⟩
      rw [hc 0] at settled loop
      rw [clusterLoop_of_not_settled settled, loop, Nat.add_assoc, Nat.add_comm 1 k]

end

/-! #### THRESH (R163) -/

/-- The threshold and the sorted centres from how the loop ended. -/
def Clusters.threshold (r : Clusters) : Threshold where
  thr := (min r.c0 r.c1 + max r.c0 r.c1) / 2
  lo := min r.c0 r.c1
  hi := max r.c0 r.c1
  iters := r.iters
  conv := r.conv

theorem kMeans_nil (maxit eps : Nat) :
    kMeans [] maxit eps = { thr := 0, lo := 0, hi := 0, iters := 0, conv := false } := rfl

theorem kMeans_eq {vs : List Int} {mn mx : Int} (hmn : IsLeast { v | v ∈ vs } mn) (hmx : IsGreatest { v | v ∈ vs } mx)
    (maxit eps : Nat) :
    kMeans vs maxit eps =
      (clusterLoop vs eps maxit (quarterPositions mn mx).1 (quarterPositions mn mx).2 0).threshold := by
  have nonempty : vs.isEmpty = false := List.isEmpty_eq_false_iff.mpr (List.ne_nil_of_mem hmn.1)
  rw [kMeans, nonempty, leastOf_eq hmn, greatestOf_eq hmx]
  rfl

/-- The centres after `n` iterations from the quarter positions (R162). -/
def State.centresAfter (s : State) (mn mx : Int) (n : Nat) : Int × Int :=
  (nextCentres (decisionValue s) s.xlen)^[n] (quarterPositions mn mx)

theorem centresAfter_succ (s : State) (mn mx : Int) (n : Nat) :
    s.centresAfter mn mx (n + 1) = nextCentres (decisionValue s) s.xlen (s.centresAfter mn mx n) :=
  Function.iterate_succ_apply' _ _ _

/-- No iteration leaves any bounds of the data (R162). -/
theorem centresAfter_between {s : State} {mn mx lo hi : Int} (hmn : IsLeast { v | v ∈ s.magnitudes } mn)
    (hmx : IsGreatest { v | v ∈ s.magnitudes } mx) (hdata : ∀ v ∈ s.magnitudes, lo ≤ v ∧ v ≤ hi) (n : Nat) :
    CentresBetween lo hi (s.centresAfter mn mx n) := by
  induction n with
  | zero => exact quarterPositions_between (hdata mn hmn.1).1 (hmx.2 hmn.1) (hdata mx hmx.1).2
  | succ n ih =>
    rw [centresAfter_succ, ← newCentres_eq_nextCentres]
    exact ih.newCentres hdata

/-- Where the threshold search of a non-empty X stops, and what it returns (R162). -/
theorem kMeans_stopsAt {s : State} {mn mx : Int} (hmn : IsLeast { v | v ∈ s.magnitudes } mn)
    (hmx : IsGreatest { v | v ∈ s.magnitudes } mx) :
    ∃ k conv, StopsAt s.kmEps s.kmIter (s.centresAfter mn mx) k conv ∧
      kMeans s.magnitudes s.kmIter s.kmEps = Clusters.threshold
        { c0 := (s.centresAfter mn mx k).1, c1 := (s.centresAfter mn mx k).2, iters := k, conv := conv } := by
  have step (n : Nat) : s.centresAfter mn mx (n + 1) =
      newCentres s.magnitudes (s.centresAfter mn mx n).1 (s.centresAfter mn mx n).2 :=
    (centresAfter_succ s mn mx n).trans (newCentres_eq_nextCentres s _).symm
  obtain ⟨k, conv, stops, loop⟩ := clusterLoop_eq step s.kmEps s.kmIter 0
  rw [Nat.zero_add] at loop
  exact ⟨k, conv, stops, (kMeans_eq hmn hmx _ _).trans (congrArg Clusters.threshold loop)⟩

/-- Sorted centres in the word range survive their words, and so does their midpoint. -/
theorem CentresBetween.words {c : Int × Int} (h : CentresBetween Config.minw Config.maxw c) :
    (wordOfInt (min c.1 c.2)).toInt = min c.1 c.2 ∧ (wordOfInt (max c.1 c.2)).toInt = max c.1 c.2 ∧
      (wordOfInt ((min c.1 c.2 + max c.1 c.2) / 2)).toInt = (min c.1 c.2 + max c.1 c.2) / 2 := by
  unfold CentresBetween at h
  refine ⟨toInt_wordOfInt ?_ ?_, toInt_wordOfInt ?_ ?_, toInt_wordOfInt ?_ ?_⟩ <;> omega

theorem threshEffect_finish_regs (s : State) :
    (threshEffect s).finish.regs = s.regs.withThreshold (kMeans s.magnitudes s.kmIter s.kmEps) := rfl

/-- Settles O42: the loop walks the iterates of the declarative step, which stay in the range of the data, so every result
survives its register. -/
theorem threshRunsTwoMeans : Obligations.ThreshRunsTwoMeans := by
  refine ⟨checksAre_decision (by simp), fun s hacc => ?_⟩
  refine ⟨(threshEffect s).finish, exec_busy hacc.1, decision_completes (i := .thresh) (by simp) s,
    keepsMemories_of_regs rfl, rfl, fun empty => ?_, fun mn mx least greatest => ?_⟩
  · have noData : s.magnitudes = [] := List.length_eq_zero_iff.mp ((magnitudes_length s).trans empty)
    rw [threshEffect_finish_regs, noData, kMeans_nil]
    exact ⟨rfl, rfl, rfl, rfl⟩
  · simp only [← mem_magnitudes] at least greatest
    obtain ⟨k, conv, stops, result⟩ := kMeans_stopsAt least greatest
    have bounded : CentresBetween Config.minw Config.maxw (s.centresAfter mn mx k) :=
      centresAfter_between least greatest (fun _ => magnitudes_range) k
    obtain ⟨low, high, mid⟩ := bounded.words
    have iters : (BitVec.ofNat 8 k).toNat = k := by
      have kmIter : s.kmIter < 256 := s.regs.kmIter.isLt
      rw [BitVec.toNat_ofNat, Nat.mod_eq_of_lt (stops.le_maxit.trans_lt kmIter)]
    refine ⟨s.centresAfter mn mx, rfl, centresAfter_succ s mn mx, ?_⟩
    rw [State.thresh, threshEffect_finish_regs, result]
    simp only [Regs.withThreshold_kmStat, Regs.withThreshold_centLo, Regs.withThreshold_centHi,
      Regs.withThreshold_thresh, Clusters.threshold, iters]
    exact ⟨stops.le_maxit, stops.unsettled, stops.conv_iff, stops.used_up, low, high, mid⟩

/-! #### Symbol decisions (R164) -/

@[simp] theorem symbols_length (vs : List Int) (T : Int) : (symbols vs T).length = vs.length := by simp [symbols]

/-- Symbol i is 1 exactly when there is a sample i and its decision value is above T. -/
theorem symbols_getD_iff (s : State) (T : Int) (i : Nat) :
    (symbols s.magnitudes T).getD i false = true ↔ i < s.xlen ∧ decisionValue s i > T := by
  rcases Nat.lt_or_ge i s.xlen with h | h <;> simp [symbols, magnitudes_eq, h]

/-! #### DECIDE, one symbol a bit (R165, R166) -/

theorem decodedBits_of_not_manchester {s : State} (h : s.enc ≠ 1) (T : Int) :
    s.decodedBits T = symbols s.magnitudes T := if_neg h

/-- Settles O44: each stored bit is the decision of its symbol. -/
theorem decideThresholdsEachSymbol : Obligations.DecideThresholdsEachSymbol := by
  refine ⟨checksAre_decision (by simp), fun s hacc henc => ?_⟩
  have fits : s.xlen ≤ 4096 := xlen_le_of_accepted (by simp [ReadsX]) hacc
  have stores : (decideEffect s).state = s.writeB (symbols s.magnitudes s.thresh) :=
    congrArg s.writeB (decodedBits_of_not_manchester henc s.thresh)
  have len : (symbols s.magnitudes s.thresh).length = s.xlen := by rw [symbols_length, magnitudes_length]
  obtain ⟨frame, regs, blen, bits⟩ := finish_writeB stores (by omega)
  refine ⟨(decideEffect s).finish, exec_busy hacc.1, decision_completes (i := .decideBits) (by simp) s, frame, regs,
    blen.trans len, fun i hi => ?_⟩
  rw [bits i (len.symm ▸ hi), ← List.getD_eq_getElem _ false, symbols_getD_iff]
  exact and_iff_right hi

/-! #### DECIDE, two symbols a bit (R167) -/

theorem decodedBits_of_manchester {s : State} (h : s.enc = 1) (T : Int) :
    s.decodedBits T = manchester false (symbols s.magnitudes T) := if_pos h

theorem decisionValue_of_manchester {s : State} (h : s.enc = 1) (i : Nat) : decisionValue s i = s.x i :=
  if_neg (by omega)

theorem not_absSaturation_of_manchester {s : State} (h : s.enc = 1) : ¬AbsSaturation s := by
  rintro ⟨ternary, -⟩
  omega

/-- The three cases of a pair: decided 1, decided 0, ambiguous. -/
theorem pairBit_cases {prev a b : Bool} {A B : Prop} (ha : a = true ↔ A) (hb : b = true ↔ B) :
    (A ∧ ¬B → pairBit prev a b = true) ∧ (¬A ∧ B → pairBit prev a b = false) ∧ ((A ↔ B) → pairBit prev a b = prev) := by
  rw [← ha, ← hb]
  cases a <;> cases b <;> simp [pairBit]

@[simp] theorem manchester_length (prev : Bool) (bs : List Bool) :
    (manchester prev bs).length = (bs.length + 1) / 2 := by
  induction prev, bs using manchester.induct with
  | case1 prev => rfl
  | case2 prev a => simp [manchester]
  | case3 prev a b rest ih =>
    simp only [manchester, List.length_cons, ih]
    omega

/-- With the initial `prev` put before the decoded bits, bit j comes from pair j and the bit before it. -/
theorem manchester_getElem (prev : Bool) (bs : List Bool) (j : Nat) (h : j < (manchester prev bs).length) :
    (manchester prev bs)[j] =
      pairBit ((prev :: manchester prev bs)[j]'(by rw [List.length_cons]; omega)) (bs.getD (2 * j) false)
        (bs.getD (2 * j + 1) false) := by
  induction prev, bs using manchester.induct generalizing j with
  | case1 prev => simp [manchester] at h
  | case2 prev a =>
    obtain rfl : j = 0 := by simpa [manchester] using h
    rfl
  | case3 prev a b rest ih =>
    cases j with
    | zero => rfl
    | succ j => exact ih j (by simpa [manchester] using h)

/-- Settles O45: by the recursion over pairs of symbols, its `prev` being the bit stored before. -/
theorem decideManchesterPairs : Obligations.DecideManchesterPairs := by
  intro s hacc henc
  have fits : s.xlen ≤ 4096 := xlen_le_of_accepted (by simp [ReadsX]) hacc
  have stores : (decideEffect s).state = s.writeB (manchester false (symbols s.magnitudes s.thresh)) :=
    congrArg s.writeB (decodedBits_of_manchester henc s.thresh)
  have len : (manchester false (symbols s.magnitudes s.thresh)).length = (s.xlen + 1) / 2 := by
    rw [manchester_length, symbols_length, magnitudes_length]
  obtain ⟨frame, regs, blen, bits⟩ := finish_writeB stores (by omega)
  refine ⟨(decideEffect s).finish, exec_busy hacc.1,
    (decision_completes (i := .decideBits) (by simp) s).congr (iff_false_intro (not_absSaturation_of_manchester henc))
      Iff.rfl, frame, regs, blen.trans len, fun j hj => ?_⟩
  have first : (symbols s.magnitudes s.thresh).getD (2 * j) false = true ↔ s.x (2 * j) > s.thresh := by
    rw [symbols_getD_iff, decisionValue_of_manchester henc]
    exact and_iff_right (by omega)
  have second : (symbols s.magnitudes s.thresh).getD (2 * j + 1) false = true ↔
      2 * j + 1 < s.xlen ∧ s.x (2 * j + 1) > s.thresh := by
    rw [symbols_getD_iff, decisionValue_of_manchester henc]
  have previous : (false :: manchester false (symbols s.magnitudes s.thresh))[j]'(by rw [List.length_cons]; omega) =
      if j = 0 then false else (decideEffect s).finish.bBit (j - 1) := by
    cases j with
    | zero => rfl
    | succ j => exact (bits j (by omega)).symm
  rw [bits j (by omega), ← previous, manchester_getElem]
  exact pairBit_cases first second

/-! #### DECODE (R169) -/

/-- Settles O46: the effect of DECODE is that of DECIDE in the state THRESH leaves, whose X and XLEN are those of `s`. -/
theorem decodeIsThreshThenDecide : Obligations.DecodeIsThreshThenDecide := by
  refine ⟨checksAre_decision (by simp), fun s hacc => ?_⟩
  have stores : (decodeEffect s).state = s.thresholded.writeB (s.thresholded.decodedBits s.thresholded.thresh) := rfl
  refine ⟨(decodeEffect s).finish, (threshEffect s).finish, (decideEffect s.thresholded).finish, exec_busy hacc.1,
    exec_busy hacc.1, ?_, hacc, ⟨hacc.1, hacc.2⟩, decision_completes (i := .decodeBits) (by simp) s,
    keepsAllButB_of_writeB stores, rfl, fun _ _ => rfl⟩
  exact exec_busy (i := .decideBits) (s := s.thresholded) hacc.1


/-! #### BRESIZE (R170) -/

@[simp] theorem resizedBits_length (s : State) : s.resizedBits.length = s.tlen := by simp [State.resizedBits]

theorem resizedBits_getElem {s : State} {i : Nat} (h : i < s.resizedBits.length) :
    s.resizedBits[i] = if i < s.blen then s.bBit i else false := by
  simp [State.resizedBits]

/-- Settles O47: by the test `i < BLEN` of each new bit; TLEN fits BLEN's field as it is. -/
theorem bresizeTruncatesOrPads : Obligations.BresizeTruncatesOrPads := by
  refine ⟨checksAre_bresize, fun s hacc => ?_⟩
  have fits : s.tlen ≤ 4096 := tlen_le_of_accepted hacc
  obtain ⟨frame, regs, -, bits⟩ := finish_writeB (c := bresizeEffect s) rfl (by rw [resizedBits_length]; omega)
  have blen : (bresizeEffect s).finish.regs.blen = s.regs.tlen := by
    simp [bresizeEffect, State.tlen]
  refine ⟨(bresizeEffect s).finish, exec_busy hacc.1,
    (effect_completes .bresize s).congr Bool.false_eq_true.to_iff Bool.false_eq_true.to_iff, frame, blen ▸ regs,
    fun i hi => ?kept, fun i old new => ?padded⟩
  case kept =>
    obtain ⟨old, new⟩ := lt_min_iff.mp hi
    rw [bits i (by simpa using new), resizedBits_getElem, if_pos old]
  case padded => rw [bits i (by simpa using new), resizedBits_getElem, if_neg (by omega)]

end Sys2Proof.Machine

end

/-! ### Command errors and the interrupt line (60_exceptions.md R182 to R190) -/

section

namespace Sys2Proof.Machine

/-- Settles O10: command by command, each check of the table is the prose's condition. -/
theorem acceptanceChecksMatchTheProse : Obligations.AcceptanceChecksMatchTheProse := fun i s => checksAre_prose i s

/-! #### The lock of ERR and its acknowledge (R187) -/

/-- The state after the return from a command error: ERR and ERRCODE cleared, all else kept (R187). -/
def State.unlocked (s : State) : State := { s with status := s.status.clearErr }

/-- The write of STATUS that acknowledges an error, whatever other flags it clears too (10_state.md R26). -/
theorem Status.writeOneToClear_of_ack (f : Status) {v : Word} (h : v.getLsbD 2 = true) : f.writeOneToClear v =
    { f with
      done := f.done && !v.getLsbD 1, err := false, sat := f.sat && !v.getLsbD 3, ebusy := f.ebusy && !v.getLsbD 4,
      errcode := 0#4 } := by
  apply Status.ext <;> simp [h]

/-- A write to anything but STATUS leaves every flag as it is. -/
theorem writeTarget_status_of_ne {s : State} {a : Target} (h : a ≠ .reg .status) (v : Word) :
    (s.writeTarget a v).status = s.status := by
  cases a with
  | reg g =>
    cases g with
    | status => exact absurd rfl h
    | _ => rfl
  | coef k => rfl
  | bitWord j => rfl
  | source i => exact State.setSource_status _ _
  | dest i => exact State.setDest_status _ _

theorem unlocked_setSource (s : State) (m : Memory) : s.unlocked.setSource m = (s.setSource m).unlocked := by
  rw [State.setSource, State.setSource, apply_ite State.unlocked]
  rfl

theorem unlocked_setDest (s : State) (m : Memory) : s.unlocked.setDest m = (s.setDest m).unlocked := by
  rw [State.setDest, State.setDest, apply_ite State.unlocked]
  rfl

/-- A write to anything but STATUS looks at no error flag. -/
theorem unlocked_writeTarget {s : State} {a : Target} (h : a ≠ .reg .status) (v : Word) :
    s.unlocked.writeTarget a v = (s.writeTarget a v).unlocked := by
  cases a with
  | reg g =>
    cases g with
    | status => exact absurd rfl h
    | _ => rfl
  | coef k => rfl
  | bitWord j => rfl
  | source i => exact unlocked_setSource s _
  | dest i => exact unlocked_setDest s _

/-- STATUS is the only address whose read shows an error flag. -/
theorem unlocked_readTarget {s : State} {a : Target} (h : a ≠ .reg .status) :
    s.unlocked.readTarget a = s.readTarget a := by
  cases a with
  | reg g =>
    cases g with
    | status => exact absurd rfl h
    | _ => rfl
  | coef k => rfl
  | bitWord j => rfl
  | source i => rfl
  | dest i => rfl

/-- While ERR = 1 a transaction to anything but CMD and STATUS is answered as if ERR were 0, and ERR stays. -/
theorem step_unlocked {s : State} {r : BusReq} {rest : List Event} (hr : s.rst = false) (hb : s.status.busy = false)
    (he : s.events = .bus r :: rest) (hcmd : r.target ≠ some (.reg .cmd)) (hstatus : r.target ≠ some (.reg .status)) :
    ∃ t, step s = .next t ∧ step s.unlocked = .next t.unlocked ∧ t.status = s.status := by
  have he' : s.unlocked.events = .bus r :: rest := he
  have hr' : s.unlocked.rst = false := hr
  have hb' : s.unlocked.status.busy = false := hb
  cases ha : r.target with
  | none => exact ⟨s.busError, step_settle (nextAction_error he hr ha), step_settle (nextAction_error he' hr' ha), rfl⟩
  | some a =>
    have hcmd : a ≠ .reg .cmd := fun h => hcmd (h ▸ ha)
    have hstatus : a ≠ .reg .status := fun h => hstatus (h ▸ ha)
    cases hw : r.we with
    | false =>
      refine ⟨s.answer (.read (s.readTarget a)), ?_, ?_, rfl⟩
      · rw [step_settle (nextAction_read he hr ha hw), busRead_of_idle hb]
      · rw [step_settle (nextAction_read he' hr' ha hw), busRead_of_idle hb', unlocked_readTarget hstatus]
        rfl
    | true =>
      refine ⟨(s.writeTarget a r.wdata).answer .written, step_settle (nextAction_write he hr ha hw hb hcmd), ?_,
        writeTarget_status_of_ne hstatus _⟩
      rw [step_settle (nextAction_write he' hr' ha hw hb' hcmd), unlocked_writeTarget hstatus]
      rfl

/-- Settles O12: the drop by the step on a CMD write, the acknowledge by the W1C rule of STATUS, every other transaction by
the kind of its target. -/
theorem errorLocksUntilAcknowledged : Obligations.ErrorLocksUntilAcknowledged := by
  intro s rest hr hb hl
  refine ⟨fun w he => ?dropped, fun v hv he => ⟨_, ?acknowledged, rfl, fun i hc => ?unlocked⟩,
    fun r he hcmd hstatus => ?others⟩
  case dropped => rw [step_cmdWrite_locked he hr hb hl, answer_of_events he]
  case acknowledged =>
    rw [step_settle (nextAction_write he hr (regTarget .status true v) rfl hb (by decide)), State.writeTarget_status,
      answer_of_events (t := s.writeStatus _) he, State.writeStatus_status, Status.writeOneToClear_of_ack _ hv]
    rfl
  case unlocked => exact ⟨_, exec_accepted hb rfl ((acceptanceCheck_congr i (by rfl)).trans hc), rfl⟩
  case others =>
    obtain ⟨t, ht, hu, hst⟩ := step_unlocked hr hb he hcmd hstatus
    exact ⟨t, t.unlocked, ht, hu, rfl, hst ▸ hl⟩

/-! #### The command-error entry (R186) -/

theorem exec_refused {i : Instr} {s : State} {e : ErrCode} (hb : s.status.busy = false) (hl : s.status.err = false)
    (hc : acceptanceCheck i s = some e) : exec i s = .next ((s.errorEntry e (encode i)).answer .written) := by
  rw [exec_idle hb, hc, issue_idle_error _ _ hb hl]

/-- Settles O11: the two outcomes of an issue with BUSY = 0 and ERR = 0. -/
theorem issueRefusesOrAccepts : Obligations.IssueRefusesOrAccepts :=
  fun _ _ hb hl => ⟨fun _ => exec_refused hb hl, exec_accepted hb hl⟩

/-! #### The interrupt line (R190) -/

/-- The bits of IEN: DONE_IE at bit 1, ERR_IE at bit 2 (10_state.md R35). -/
theorem Ien.toWord_getLsbD (f : Ien) (n : Nat) : f.toWord.getLsbD n = [false, f.doneIe, f.errIe].getD n false := by
  unfold Ien.toWord
  iterate 3 rw [BitVec.getLsbD_append]
  rcases Nat.lt_or_ge n 3 with h | h
  · interval_cases n <;> simp [flagBit]
  · rw [List.getD_eq_default _ _ h, if_neg (by omega), if_neg (by omega), if_neg (by omega), BitVec.getLsbD_zero]

/-- The enables stand at the bits of the flags they enable (10_state.md R26, R35). -/
theorem irq_iff_common_bit (s : State) :
    s.irq = true ↔ ∃ n, s.status.toWord.getLsbD n = true ∧ s.regs.ien.toWord.getLsbD n = true := by
  simp only [Status.toWord_getLsbD, Ien.toWord_getLsbD, State.irq, Bool.or_eq_true, Bool.and_eq_true]
  constructor
  · rintro (h | h)
    · exact ⟨1, h⟩
    · exact ⟨2, h⟩
  · rintro ⟨n, hs, hi⟩
    match n with
    | 0 => cases hi
    | 1 => exact .inl ⟨hs, hi⟩
    | 2 => exact .inr ⟨hs, hi⟩
    | _ + 3 => cases hi

theorem and_ne_zero_iff_common_bit (a b : Word) :
    a &&& b ≠ 0#32 ↔ ∃ n, a.getLsbD n = true ∧ b.getLsbD n = true := by
  rw [ne_eq, BitVec.zero_iff_eq_false]
  simp

/-- The completion of a command raises DONE and keeps ERR (10_state.md R61). -/
theorem finish_irq (i : Instr) (s : State) : (effectOf i s).finish.irq =
    ((effectOf i s).finish.regs.ien.doneIe || (s.status.err && (effectOf i s).finish.regs.ien.errIe)) := by
  obtain ⟨-, done, -, -, err, -⟩ := effect_completes i s
  rw [State.irq, done, err, Bool.true_and]

/-- Settles O23: the words by their common bits, the rest by the flags that reset, acceptance and completion leave. -/
theorem interruptLineFollowsTheFlags : Obligations.InterruptLineFollowsTheFlags := by
  refine ⟨fun _ => rfl, fun s => (irq_iff_common_bit s).trans (and_ne_zero_iff_common_bit _ _).symm, rfl,
    fun i s hb hl hc => ⟨_, exec_accepted hb hl hc, ?_⟩, fun i s hb => ⟨_, exec_busy hb, finish_irq i s⟩⟩
  simp [State.irq, hl]

end Sys2Proof.Machine

end

/-! ### Every step of the machine (10_state.md R61 to R63, 70_reset_and_hazards.md R200) -/

section

namespace Sys2Proof.Machine

/-! #### The cause of a step -/

theorem encode_injective {i j : Instr} (h : encode i = encode j) : i = j :=
  Option.some_inj.mp ((decode_encode i).symm.trans (h ▸ decode_encode j))

/-- A command's word is refused where its checks are (60_exceptions.md R186). -/
theorem refusing_of_check {s : State} {i : Instr} (hb : s.status.busy = false) (hl : s.status.err = false)
    (hw : HostWrites s (.reg .cmd) (encode i)) (hc : acceptanceCheck i s ≠ none) : Refusing s :=
  ⟨hb, hl, encode i, hw, fun _ hj => encode_injective hj ▸ hc⟩

theorem refusing_of_illegal {s : State} {w : Word} (hb : s.status.busy = false) (hl : s.status.err = false)
    (hw : HostWrites s (.reg .cmd) w) (hd : decode w = none) : Refusing s :=
  ⟨hb, hl, w, hw, fun _ hj => by simp [hj] at hd⟩

/-- Everything a step can be, with its cause in the terms of 10_state.md R33. -/
inductive Transition (s : State) : State → Prop
  | reset (h : Resetting s) : Transition s s.resetStep
  | complete {op : BitVec 8} {i : Instr} (h : Completing s) (latched : s.opLatch = some op)
      (decoded : decodeOp op = some i) : Transition s (effectOf i s).finish
  | accept {i : Instr} (idle : s.status.busy = false) (unlocked : s.status.err = false)
      (h : HostWrites s (.reg .cmd) (encode i)) (checks : acceptanceCheck i s = none) :
      Transition s ((s.accept (encode i)).answer .written)
  | refuse (h : Refusing s) (e : ErrCode) (w : Word) : Transition s ((s.errorEntry e w).answer .written)
  | drop (h : WritingWhileBusy s) : Transition s (s.dropWrite.answer .written)
  | clear {v : Word} (idle : s.status.busy = false) (h : HostWrites s (.reg .status) v) :
      Transition s ((s.writeStatus v).answer .written)
  | write {a : Target} {v : Word} (idle : s.status.busy = false) (h : HostWrites s a v) (notStatus : a ≠ .reg .status) :
      Transition s ((s.writeTarget a v).answer .written)
  /-- A read, a bus error, a CMD write dropped while ERR = 1, the engine with nothing to complete, the pin low or held
  high. -/
  | quiet {n : Nat} {r : Reply} {pin : Bool} (held : pin = true → s.rst = true) :
      Transition s { s with events := s.events.tail, reply := r, free := n, rst := pin }

/-- A read or a bus error changes the answer and the counter of free values at most (20_memory.md R73, R74). -/
theorem busRead_eq (s : State) (a : Target) :
    ∃ n r, s.busRead a = { s with events := s.events.tail, reply := r, free := n } := by
  unfold State.busRead
  split
  · exact ⟨_, _, rfl⟩
  · exact ⟨_, _, rfl⟩

/-- The issue of a word to an idle PSF1 (10_state.md R62). -/
theorem Transition.of_issue {s : State} {w : Word} {e : Option ErrCode} (idle : s.status.busy = false)
    (refused : ∀ c, e = some c → s.status.err = false → Refusing s)
    (accepted : e = none → ∃ i, w = encode i ∧ HostWrites s (.reg .cmd) (encode i) ∧ acceptanceCheck i s = none) :
    Transition s (s.issue w e) := by
  rcases issue_cases s w e with ⟨busy, -⟩ | ⟨-, -, issue⟩ | ⟨-, unlocked, c, he, issue⟩ | ⟨-, unlocked, he, issue⟩
  · simp [idle] at busy
  · rw [issue]
    exact .quiet id
  · rw [issue]
    exact .refuse (refused c he unlocked) c w
  · rw [issue]
    obtain ⟨i, rfl, writes, checks⟩ := accepted he
    exact .accept idle unlocked writes checks

/-- While BUSY = 1 only the engine runs a command (10_state.md R61, R63). -/
theorem completing_of_run {s : State} {i : Instr} (h : s.nextAction = .run i) (busy : s.status.busy = true) :
    Completing s := by
  obtain ⟨hr, -⟩ := nextAction_run h
  refine ⟨hr, busy, ?_⟩
  cases he : s.events with
  | nil => exact .inl rfl
  | cons e rest =>
    cases e with
    | engine => exact .inr ⟨rest, rfl⟩
    | rst high => simp [State.nextAction, he, State.rstAction] at h
    | bus r =>
      cases ht : r.target with
      | none => simp [nextAction_error he hr ht] at h
      | some a =>
        cases hw : r.we with
        | false => simp [nextAction_read he hr ht hw] at h
        | true => simp [nextAction_drop he hr ht hw busy] at h

theorem step_transition {s t : State} (h : step s = .next t) : Transition s t := by
  rcases step_cases h with ⟨i, run, busy, rfl⟩ | ⟨i, run, idle, rfl⟩ | settle
  · obtain ⟨-, ⟨-, op, latched, decoded⟩ | ⟨idle, -⟩⟩ := nextAction_run run
    · exact .complete (completing_of_run run busy) latched decoded
    · simp [busy] at idle
  · obtain ⟨hr, ⟨busy, -⟩ | ⟨-, r, rest, he, ht, hw, hd⟩⟩ := nextAction_run run
    · simp [idle] at busy
    · have writes : HostWrites s (.reg .cmd) (encode i) := ⟨hr, r, rest, he, hw, ht, eq_encode_of_decode hd⟩
      exact .of_issue idle (fun c hc unlocked => refusing_of_check idle unlocked writes (by simp [hc]))
        fun hc => ⟨i, rfl, writes, hc⟩
  · rcases nextAction_settle settle with ⟨rest, he, rfl⟩ | ⟨rest, he, rfl⟩ | ⟨-, rfl⟩ | ⟨hr, r, rest, he, bus⟩
    · exact .reset ⟨rest, he⟩
    · exact .quiet (pin := false) nofun
    · exact .quiet id
    · rcases bus with ⟨-, rfl⟩ | ⟨a, -, -, rfl⟩ | ⟨a, ht, hw, busy, rfl⟩ | ⟨ht, hw, idle, hd, rfl⟩ |
        ⟨a, ht, -, hw, idle, rfl⟩
      · exact .quiet id
      · obtain ⟨n, r, read⟩ := busRead_eq s a
        rw [read]
        exact .quiet id
      · exact .drop ⟨busy, a, _, hr, r, rest, he, hw, ht, rfl⟩
      · have writes : HostWrites s (.reg .cmd) r.wdata := ⟨hr, r, rest, he, hw, ht, rfl⟩
        exact .of_issue idle (fun _ _ unlocked => refusing_of_illegal idle unlocked writes hd) nofun
      · have writes : HostWrites s a r.wdata := ⟨hr, r, rest, he, hw, ht, rfl⟩
        by_cases status : a = .reg .status
        · subst status
          exact .clear idle writes
        · exact .write idle writes status

/-! #### The memories within their sizes (10_state.md R55 to R57) -/

theorem Memory.putWord_within {m : Memory} {n a : Nat} {w : Word} (h : m.within n) (ha : a + 4 ≤ n) :
    (m.putWord a w).within n := fun p hp => by
  rcases mem_putWord hp with ⟨-, below⟩ | old
  · omega
  · exact h p old

theorem memOfWords_within {ws : List Word} {e n : Nat} (h : 4 * ws.length ≤ n) : (memOfWords ws e).within n :=
  fun p hp => by
    obtain ⟨-, below⟩ := mem_wordCells hp
    omega

theorem memOfBits_within {bs : List Bool} {e n : Nat} (h : bs.length ≤ n) : (memOfBits bs e).within n :=
  fun p hp => by
    obtain ⟨-, below⟩ := mem_bitCells hp
    omega

/-- A memory that lists nothing is in canonical form within any size. -/
theorem Memory.sound_of_unlisted {m : Memory} (h : m.cells = []) (n : Nat) : m.wf ∧ m.within n := by
  unfold Memory.wf Memory.within
  simp [h]

/-- The part of a sound state that the host's writes and the commands' results reach: each memory in canonical form within
its size, and BLEN. -/
structure State.StorageSound (s : State) : Prop where
  buf0 : s.buf0.wf ∧ s.buf0.within (4 * 4096)
  buf1 : s.buf1.wf ∧ s.buf1.within (4 * 4096)
  coef : s.coef.wf ∧ s.coef.within (4 * 385)
  bits : s.bits.wf ∧ s.bits.within 4096
  blen_le : s.blen ≤ 4096

theorem State.Sound.storage {s : State} (h : s.Sound) : s.StorageSound :=
  ⟨⟨h.buf0_wf, h.buf0_size⟩, ⟨h.buf1_wf, h.buf1_size⟩, ⟨h.coef_wf, h.coef_size⟩, ⟨h.bits_wf, h.bits_size⟩, h.blen_le⟩

section
variable {s : State}

theorem State.StorageSound.of_unlisted (buf0 : s.buf0.cells = []) (buf1 : s.buf1.cells = []) (coef : s.coef.cells = [])
    (bits : s.bits.cells = []) (blen : s.blen = 0) : s.StorageSound :=
  ⟨Memory.sound_of_unlisted buf0 _, Memory.sound_of_unlisted buf1 _, Memory.sound_of_unlisted coef _,
    Memory.sound_of_unlisted bits _, blen ▸ Nat.zero_le _⟩

theorem State.StorageSound.setSource (h : s.StorageSound) {m : Memory} (hm : m.wf ∧ m.within (4 * 4096)) :
    (s.setSource m).StorageSound := by
  unfold State.setSource
  split
  · exact { h with buf1 := hm }
  · exact { h with buf0 := hm }

theorem State.StorageSound.setDest (h : s.StorageSound) {m : Memory} (hm : m.wf ∧ m.within (4 * 4096)) :
    (s.setDest m).StorageSound := by
  unfold State.setDest
  split
  · exact { h with buf0 := hm }
  · exact { h with buf1 := hm }

theorem State.StorageSound.source (h : s.StorageSound) : s.source.wf ∧ s.source.within (4 * 4096) := by
  unfold State.source
  split
  · exact h.buf1
  · exact h.buf0

theorem State.StorageSound.dest (h : s.StorageSound) : s.dest.wf ∧ s.dest.within (4 * 4096) := by
  unfold State.dest
  split
  · exact h.buf0
  · exact h.buf1

theorem State.StorageSound.writeY (h : s.StorageSound) {ys : List Word} (hlen : ys.length ≤ 4096) :
    (s.writeY ys).StorageSound :=
  { h.setDest (m := memOfWords ys s.free) ⟨memOfWords_wf _ _, memOfWords_within (by omega)⟩ with }

theorem State.StorageSound.writeB (h : s.StorageSound) {bs : List Bool} (hlen : bs.length ≤ 4096) :
    (s.writeB bs).StorageSound :=
  { h with
    bits := ⟨memOfBits_wf _ _, memOfBits_within hlen⟩
    blen_le := by simp only [State.blen, State.writeB_regs, BitVec.toNat_ofNat]; omega }

theorem State.StorageSound.writeC (h : s.StorageSound) {ws : List Word} (hlen : ws.length ≤ 385) :
    (s.writeC ws).StorageSound :=
  { h with coef := ⟨memOfWords_wf _ _, memOfWords_within (by omega)⟩ }

/-- A register write reaches neither BLEN nor a memory. -/
theorem State.StorageSound.writeReg (h : s.StorageSound) (g : Reg) (v : Word) : (s.writeReg g v).StorageSound := by
  cases g <;> exact { h with }

/-- The windows end where the memories do (20_memory.md R71). -/
theorem State.StorageSound.writeTarget (h : s.StorageSound) {r : BusReq} {a : Target} (ha : r.target = some a)
    (v : Word) : (s.writeTarget a v).StorageSound := by
  obtain ⟨source, dest, coef, -⟩ := target_bounds ha
  cases a with
  | reg g => exact h.writeReg g v
  | coef k =>
    have := coef k rfl
    exact { h with coef := ⟨Memory.putWord_wf _ _ h.coef.1, Memory.putWord_within h.coef.2 (by omega)⟩ }
  | bitWord j => exact h
  | source i =>
    have := source i rfl
    exact h.setSource ⟨Memory.putWord_wf _ _ h.source.1, Memory.putWord_within h.source.2 (by omega)⟩
  | dest i =>
    have := dest i rfl
    exact h.setDest ⟨Memory.putWord_wf _ _ h.dest.1, Memory.putWord_within h.dest.2 (by omega)⟩

end

/-! #### What an accepted command stores fits (60_exceptions.md R183) -/

/-- A reception filter stores one word for each word of X (42_rxfilter.md R131). -/
theorem unlessShort_stores {filter : State → Completion} {s : State}
    (h : ∃ ys, (filter s).state = s.writeY ys ∧ ys.length = s.xlen) :
    ∃ ys, (unlessShort filter s).state = s.writeY ys ∧ ys.length = s.xlen := by
  unfold unlessShort
  split
  · exact ⟨_, rfl, by simp⟩
  · exact h

theorem rxmatchEffect_stores (s : State) : ∃ ys, (rxmatchEffect s).state = s.writeY ys ∧ ys.length = s.xlen :=
  unlessShort_stores ⟨_, rfl, by simp [matchFilter]⟩

theorem rxsmoothEffect_stores (s : State) : ∃ ys, (rxsmoothEffect s).state = s.writeY ys ∧ ys.length = s.xlen :=
  unlessShort_stores ⟨_, rfl, by simp⟩

theorem rxmavgEffect_stores (s : State) : ∃ ys, (rxmavgEffect s).state = s.writeY ys ∧ ys.length = s.xlen :=
  unlessShort_stores ⟨_, rfl, by simp [averageFilter]⟩

theorem rxfiltEffect_stores (s : State) : ∃ ys, (rxfiltEffect s).state = s.writeY ys ∧ ys.length = s.xlen := by
  unfold rxfiltEffect
  split
  · exact rxsmoothEffect_stores s
  · split
    · exact rxmavgEffect_stores s
    · exact rxmatchEffect_stores s

/-- A transmit filter stores SPS words for each word of X (41_txfilter.md R116, R119). -/
theorem txfiltEffect_stores (s : State) :
    ∃ ys, (txfiltEffect s).state = s.writeY ys ∧ ys.length = s.xlen * s.sps := by
  unfold txfiltEffect
  split
  · exact ⟨_, rfl, by simp⟩
  · exact ⟨_, rfl, by simp⟩

theorem decodedBits_length_le (s : State) (T : Int) : (s.decodedBits T).length ≤ s.xlen := by
  unfold State.decodedBits
  split
  · rw [manchester_length, symbols_length, magnitudes_length]
    omega
  · rw [symbols_length, magnitudes_length]

theorem checksAre_kgen :
    ChecksAre .kgen (fun s => s.fkind = 0 ∨ s.fkind = 3 ∨ SpsOutside s ∨ s.alpha > 16777216) Never Never :=
  fun s => firstError_iff (by simp [SpsOutside, Config.one, or_assoc]) Bool.false_eq_true.to_iff
    Bool.false_eq_true.to_iff

theorem sps_range_of_accepted {i : Instr} {s : State} (hi : ReadsSps i) (h : Accepted i s) : 1 ≤ s.sps ∧ s.sps ≤ 64 := by
  obtain ⟨-, -, -, accepted⟩ := checksAre_prose i s
  obtain ⟨cfg, -, -⟩ := accepted.mp h.2
  exact ⟨one_le_sps_of_accepted hi h, Nat.not_lt.mp fun large => cfg (.inl ⟨hi, .inr large⟩)⟩

theorem upsampled_le_of_accepted {i : Instr} {s : State} (hi : i = .txhold ∨ i = .txshape ∨ i = .txfilt)
    (h : Accepted i s) : s.xlen * s.sps ≤ 4096 := by
  obtain ⟨-, -, -, accepted⟩ := checksAre_prose i s
  obtain ⟨-, len, -⟩ := accepted.mp h.2
  exact Nat.not_lt.mp fun long => len (.inr (.inl ⟨hi, long⟩))

@[simp] theorem generatedKernel_length (kind : KernelKind) (S A : Nat) : (generatedKernel kind S A).length = 6 * S + 1 := by
  simp [generatedKernel]

/-- The results of an accepted command fit in the memories they are stored in. -/
theorem State.StorageSound.effect {i : Instr} {s : State} (h : s.StorageSound) (hacc : Accepted i s) :
    (effectOf i s).state.StorageSound := by
  have xlen (hi : ReadsX i) : s.xlen ≤ 4096 := xlen_le_of_accepted hi hacc
  have stored {ys : List Word} {c : Completion} (hc : c.state = s.writeY ys) (hlen : ys.length ≤ 4096) :
      c.state.StorageSound := hc ▸ h.writeY hlen
  have filtered {c : Completion} (hi : ReadsX i) (hc : ∃ ys, c.state = s.writeY ys ∧ ys.length = s.xlen) :
      c.state.StorageSound :=
    let ⟨_, eq, len⟩ := hc
    stored eq (len.trans_le (xlen hi))
  have downsampled {b : Nat} (hi : ReadsX i) : ((downsample s.samples s.sps b).map wordOfInt).length ≤ 4096 := by
    rw [List.length_map]
    exact downsample_length_le.trans ((samples_length s).trans_le (xlen hi))
  cases i with
  | nop | xchg | eyesrch | eyemet | thresh => exact { h with }
  | kgen =>
    obtain ⟨-, sps⟩ := sps_range_of_accepted (by simp [ReadsSps]) hacc
    exact h.writeC (by rw [generatedKernel_length]; omega)
  | txfilt =>
    obtain ⟨ys, eq, len⟩ := txfiltEffect_stores s
    exact stored eq (len.trans_le (upsampled_le_of_accepted (by simp) hacc))
  | txhold => exact h.writeY (by simpa using upsampled_le_of_accepted (by simp) hacc)
  | txshape => exact h.writeY (by simpa using upsampled_le_of_accepted (by simp) hacc)
  | rxfilt => exact filtered (by simp [ReadsX]) (rxfiltEffect_stores s)
  | rxmatch => exact filtered (by simp [ReadsX]) (rxmatchEffect_stores s)
  | rxsmooth => exact filtered (by simp [ReadsX]) (rxsmoothEffect_stores s)
  | rxmavg => exact filtered (by simp [ReadsX]) (rxmavgEffect_stores s)
  | decim => exact h.writeY (downsampled (by simp [ReadsX]))
  | recover => exact State.StorageSound.writeY (s := s.searched) { h with } (downsampled (by simp [ReadsX]))
  | decideBits => exact h.writeB ((decodedBits_length_le s _).trans (xlen (by simp [ReadsX])))
  | decodeBits =>
    exact State.StorageSound.writeB (s := s.thresholded) { h with }
      ((decodedBits_length_le s.thresholded _).trans (xlen (by simp [ReadsX])))
  | bresize => exact h.writeB (by rw [resizedBits_length]; exact tlen_le_of_accepted hacc)

/-! #### The invariant (10_state.md R21, R29, R44) -/

/-- The command that stands accepted in a sound state is the one OPLATCH holds. -/
theorem State.Sound.accepted {s : State} {op : BitVec 8} {i : Instr} (h : s.Sound) (hb : s.status.busy = true)
    (latched : s.opLatch = some op) (decoded : decodeOp op = some i) : Accepted i s := by
  obtain ⟨j, holds, checks, -⟩ := h.busy hb
  rw [latched] at holds
  cases holds
  rw [decodeOp_opField_encode] at decoded
  cases decoded
  exact ⟨hb, checks⟩

/-- A step that at most sets EBUSY keeps a sound state sound. -/
theorem State.Sound.of_ebusy {s : State} (h : s.Sound) {e : Bool} {es : List Event} {r : Reply} {n : Nat} {pin : Bool}
    (held : pin = true → s.rst = true) :
    State.Sound { s with status := { s.status with ebusy := e }, events := es, reply := r, free := n, rst := pin } :=
  { h with
    busy := fun hb => by
      obtain ⟨i, latched, checks, flags⟩ := h.busy hb
      exact ⟨i, latched, (acceptanceCheck_congr i (by rfl)).trans checks, flags⟩
    held := fun hp => h.held (held hp) }

/-- While idle nothing is latched, so only the error flags and the memories are left to show. -/
theorem State.StorageSound.sound_of_idle {s : State} (h : s.StorageSound) (idle : s.status.busy = false)
    (latch : s.opLatch = none) (err : s.status.err = true ↔ s.status.errcode ≠ 0#4)
    (errcode : s.status.errcode.toNat ≤ 4) : s.Sound where
  err_iff := err
  errcode_le := errcode
  idle := fun _ => latch
  busy := fun busy => by simp [idle] at busy
  held := fun _ => idle
  buf0_wf := h.buf0.1
  buf1_wf := h.buf1.1
  coef_wf := h.coef.1
  bits_wf := h.bits.1
  buf0_size := h.buf0.2
  buf1_size := h.buf1.2
  coef_size := h.coef.2
  bits_size := h.bits.2
  blen_le := h.blen_le

theorem sound_resetStep (s : State) : s.resetStep.Sound :=
  State.StorageSound.sound_of_idle (.of_unlisted rfl rfl rfl rfl rfl) rfl rfl (by simp [State.reset]) (Nat.zero_le _)

theorem errNumber_ne_zero (e : ErrCode) : errNumber e ≠ 0#4 := by cases e <;> decide

theorem errNumber_le (e : ErrCode) : (errNumber e).toNat ≤ 4 := by cases e <;> decide

/-- The W1C rule clears ERR and ERRCODE together (10_state.md R26, R29). -/
theorem Status.writeOneToClear_errorFlags {f : Status} (err : f.err = true ↔ f.errcode ≠ 0#4)
    (errcode : f.errcode.toNat ≤ 4) (v : Word) :
    ((f.writeOneToClear v).err = true ↔ (f.writeOneToClear v).errcode ≠ 0#4) ∧
      (f.writeOneToClear v).errcode.toNat ≤ 4 := by
  rw [Status.writeOneToClear_err, Status.writeOneToClear_errcode]
  cases v.getLsbD 2
  · rw [Bool.not_false, Bool.and_true, if_neg Bool.false_ne_true]
    exact ⟨err, errcode⟩
  · simp

/-- No write but that of CMD reaches OPLATCH. -/
theorem writeTarget_opLatch (s : State) (a : Target) (v : Word) : (s.writeTarget a v).opLatch = s.opLatch := by
  cases a with
  | reg g => cases g <;> rfl
  | coef k => rfl
  | bitWord j => rfl
  | source i => exact State.setSource_opLatch _ _
  | dest i => exact State.setDest_opLatch _ _

theorem State.Sound.clear {s : State} (h : s.Sound) (v : Word) (idle : s.status.busy = false) :
    ((s.writeStatus v).answer .written).Sound := by
  obtain ⟨err, errcode⟩ := Status.writeOneToClear_errorFlags h.err_iff h.errcode_le v
  exact State.StorageSound.sound_of_idle { h.storage with } (by simpa using idle) (h.idle idle) err errcode

theorem State.Sound.write {s : State} (h : s.Sound) {a : Target} {v : Word} (idle : s.status.busy = false)
    (writes : HostWrites s a v) (notStatus : a ≠ .reg .status) : ((s.writeTarget a v).answer .written).Sound := by
  obtain ⟨-, r, rest, -, -, target, -⟩ := writes
  have err := h.err_iff
  have errcode := h.errcode_le
  rw [← writeTarget_status_of_ne notStatus v] at idle err errcode
  exact State.StorageSound.sound_of_idle { h.storage.writeTarget target v with } idle
    ((writeTarget_opLatch s a v).trans (h.idle (by rwa [writeTarget_status_of_ne notStatus] at idle))) err errcode

theorem State.Sound.complete {s : State} (h : s.Sound) {i : Instr} (hacc : Accepted i s) :
    (effectOf i s).finish.Sound := by
  obtain ⟨busy, -, -, -, err, errcode, -, latch, -⟩ := effect_completes i s
  refine State.StorageSound.sound_of_idle { h.storage.effect hacc with } busy latch ?_ ?_
  · rw [err, errcode]
    exact h.err_iff
  · rw [errcode]
    exact h.errcode_le

/-- Settles O53: by the cause of the step; a completion stores no more than its memory holds because its checks passed. -/
theorem everyStepKeepsSound : Obligations.EveryStepKeepsSound := by
  intro s t h hstep
  cases step_transition hstep with
  | reset => exact sound_resetStep s
  | complete completing latched decoded =>
    obtain ⟨-, busy, -⟩ := completing
    exact h.complete (h.accepted busy latched decoded)
  | @accept i idle unlocked writes checks =>
    obtain ⟨low, -⟩ := writes
    exact
      { h with
        idle := nofun
        busy := fun _ => ⟨i, rfl, (acceptanceCheck_congr i (by rfl)).trans checks, unlocked, rfl, rfl⟩
        held := fun high => by simp [low] at high }
  | refuse refusing e w =>
    obtain ⟨idle, -⟩ := refusing
    exact State.StorageSound.sound_of_idle { h.storage with } idle (h.idle idle)
      ⟨fun _ => errNumber_ne_zero e, fun _ => rfl⟩ (errNumber_le e)
  | drop => exact h.of_ebusy id
  | @clear v idle => exact h.clear v idle
  | write idle writes notStatus => exact h.write idle writes notStatus
  | quiet held => exact h.of_ebusy held

/-- The one fault of the model needs BUSY = 1 without a command in OPLATCH (log 6). -/
theorem engineAction_stuck {s : State} {f : Fault} (h : s.engineAction = .stuck f) :
    s.status.busy = true ∧ s.opLatch.bind decodeOp = none := by
  unfold State.engineAction at h
  split at h
  · cases h
  · next running =>
    split at h
    · cases h
    · next latch => exact ⟨by simp_all, latch⟩

theorem busAction_ne_stuck (s : State) (r : BusReq) (f : Fault) : s.busAction r ≠ .stuck f := by
  unfold State.busAction State.writeAction
  repeat' split
  all_goals nofun

/-- A sound state holds a command of the table whenever the engine could stop. -/
theorem State.Sound.engineAction_ne_stuck {s : State} (h : s.Sound) (f : Fault) : s.engineAction ≠ .stuck f := by
  intro stuck
  obtain ⟨busy, undecoded⟩ := engineAction_stuck stuck
  obtain ⟨i, latched, -⟩ := h.busy busy
  simp [latched, decodeOp_opField_encode] at undecoded

theorem State.Sound.nextAction_ne_stuck {s : State} (h : s.Sound) (f : Fault) : s.nextAction ≠ .stuck f := by
  unfold State.nextAction
  split
  · exact h.engineAction_ne_stuck f
  · exact h.engineAction_ne_stuck f
  · nofun
  · exact busAction_ne_stuck s _ f

/-- Every command answers a next state, whether issued or completed. -/
theorem exec_next (i : Instr) (s : State) : ∃ t, exec i s = .next t := by
  cases hb : s.status.busy with
  | false => exact ⟨_, exec_idle hb⟩
  | true => exact ⟨_, exec_busy hb⟩

/-- Settles O54: the engine's step is the only one that could stop, and OPLATCH of a sound state decodes. -/
theorem soundStatesNeverStop : Obligations.SoundStatesNeverStop := by
  intro s h
  cases action : s.nextAction with
  | run i =>
    rw [step_run action]
    exact exec_next i s
  | settle t => exact ⟨t, step_settle action⟩
  | stuck f => exact absurd action (h.nextAction_ne_stuck f)

/-- Settles O52: nothing is listed, set or latched after reset, and every coherent register is 0. -/
theorem soundAtReset : Obligations.SoundAtReset := by
  exact ⟨State.StorageSound.sound_of_idle (.of_unlisted rfl rfl rfl rfl rfl) rfl rfl (by decide) (by decide),
    ⟨by decide, by decide, by decide, by decide, by decide⟩, ⟨by decide, by decide, by decide, by decide⟩,
    le_refl (0 : Int), rfl, rfl⟩

/-! #### The result registers (10_state.md R50 to R54, R59) -/

/-- The registers that only commands write hold in `h` what they hold in `g`. -/
structure SameResults (g h : Regs) : Prop where
  kmStat : h.kmStat = g.kmStat
  centLo : h.centLo = g.centLo
  centHi : h.centHi = g.centHi
  eyeOpen : h.eyeOpen = g.eyeOpen
  eyeMinHigh : h.eyeMinHigh = g.eyeMinHigh
  eyeMaxLow : h.eyeMaxLow = g.eyeMaxLow
  eyeStat : h.eyeStat = g.eyeStat
  emMaxOpen : h.emMaxOpen = g.emMaxOpen
  emMinOpen : h.emMinOpen = g.emMinOpen
  emMinHigh : h.emMinHigh = g.emMinHigh
  emMaxLow : h.emMaxLow = g.emMaxLow

theorem SameResults.refl (g : Regs) : SameResults g g := by constructor <;> rfl

theorem sameResults_writeY (s : State) (ys : List Word) : SameResults s.regs (s.writeY ys).regs := by
  rw [State.writeY_regs]
  exact { SameResults.refl s.regs with }

/-- A host write reaches no result register (10_state.md R23). -/
theorem sameResults_writeTarget (s : State) (a : Target) (v : Word) : SameResults s.regs (s.writeTarget a v).regs := by
  cases a with
  | reg g => cases g <;> exact { SameResults.refl s.regs with }
  | coef k => exact .refl s.regs
  | bitWord j => exact .refl s.regs
  | source i => exact (State.setSource_regs s _).symm ▸ .refl s.regs
  | dest i => exact (State.setDest_regs s _).symm ▸ .refl s.regs

/-- The state after the eye-opening metrics of its X (44_eye_metrics.md R151). -/
def State.measured (s : State) : State := (eyemetEffect s).state

/-- Which commands write result registers, and with which results. -/
theorem effect_results (i : Instr) (s : State) :
    (i ∈ [Instr.eyesrch, .recover] ∧ SameResults s.searched.regs (effectOf i s).finish.regs) ∨
    (i = .eyemet ∧ SameResults s.measured.regs (effectOf i s).finish.regs) ∨
    (i ∈ [Instr.thresh, .decodeBits] ∧ SameResults s.thresholded.regs (effectOf i s).finish.regs) ∨
    SameResults s.regs (effectOf i s).finish.regs := by
  have stored {c : Completion} {ys : List Word} (h : c.state = s.writeY ys) : SameResults s.regs c.finish.regs := by
    rw [Completion.finish_regs, h]
    exact sameResults_writeY s ys
  have filtered {c : Completion} {n : Nat} (h : ∃ ys, c.state = s.writeY ys ∧ ys.length = n) :
      SameResults s.regs c.finish.regs :=
    let ⟨_, eq, _⟩ := h
    stored eq
  cases i with
  | eyesrch => exact .inl ⟨by simp, .refl _⟩
  | recover => exact .inl ⟨by simp, sameResults_writeY s.searched _⟩
  | eyemet => exact .inr (.inl ⟨rfl, .refl _⟩)
  | thresh => exact .inr (.inr (.inl ⟨by simp, .refl _⟩))
  | decodeBits => exact .inr (.inr (.inl ⟨by simp, { SameResults.refl s.thresholded.regs with }⟩))
  | nop => exact .inr (.inr (.inr (.refl _)))
  | xchg | kgen | decideBits | bresize => exact .inr (.inr (.inr { SameResults.refl s.regs with }))
  | txhold | txshape | decim => exact .inr (.inr (.inr (stored rfl)))
  | txfilt => exact .inr (.inr (.inr (filtered (txfiltEffect_stores s))))
  | rxfilt => exact .inr (.inr (.inr (filtered (rxfiltEffect_stores s))))
  | rxmatch => exact .inr (.inr (.inr (filtered (rxmatchEffect_stores s))))
  | rxsmooth => exact .inr (.inr (.inr (filtered (rxsmoothEffect_stores s))))
  | rxmavg => exact .inr (.inr (.inr (filtered (rxmavgEffect_stores s))))

/-- A step leaves every result register, unless it is a reset or a completion. -/
theorem step_results {s t : State} (h : step s = .next t) :
    (Resetting s ∧ t = s.resetStep) ∨
    (∃ op i, Completing s ∧ s.opLatch = some op ∧ decodeOp op = some i ∧ t = (effectOf i s).finish) ∨
    SameResults s.regs t.regs := by
  cases step_transition h with
  | reset resetting => exact .inl ⟨resetting, rfl⟩
  | complete completing latched decoded => exact .inr (.inl ⟨_, _, completing, latched, decoded, rfl⟩)
  | accept => exact .inr (.inr (.refl _))
  | refuse => exact .inr (.inr { SameResults.refl s.regs with })
  | drop | clear => exact .inr (.inr (.refl _))
  | @write a v => exact .inr (.inr (sameResults_writeTarget s a v))
  | quiet => exact .inr (.inr (.refl _))

/-! #### The eye registers (R53, R54) -/

theorem State.EyeCoherent.congr {s t : State} (h : s.EyeCoherent) (same : SameResults s.regs t.regs) : t.EyeCoherent where
  opening := by rw [same.eyeOpen, same.eyeMinHigh, same.eyeMaxLow]; exact h.opening
  high := by rw [same.eyeMinHigh]; exact h.high
  low := by rw [same.eyeMaxLow]; exact h.low
  count := by rw [same.eyeStat]; exact h.count
  default := by rw [same.eyeOpen, same.eyeMinHigh, same.eyeMaxLow, same.eyeStat]; exact h.default

/-- A search over a legal X leaves coherent registers: those of a candidate, whose centres leave a symbol period on either
side, or the default's zeros. -/
theorem eyeCoherent_searched {s : State} (hS : 1 ≤ s.sps) (hM : s.xlen ≤ 4096) : s.searched.EyeCoherent := by
  have regs : s.searched.regs = s.regs.withEye (eyeSearch s.samples s.sps) := rfl
  rcases eyeSearch_cases s.samples s.sps with ⟨o, ⟨below, count, -⟩, result⟩ | ⟨-, result⟩
  · have candidate : EyeCandidate s o (orZero (s.eyeScan o).minHigh) (orZero (s.eyeScan o).maxLow) :=
      (eyeCandidate_iff hS).mpr ⟨below, count, rfl, rfl⟩
    obtain ⟨opening, high, low⟩ := candidate.words
    obtain ⟨⟨high0, -⟩, -, low0⟩ := candidate.levels_range
    have vcnt : (s.eyeScan o).count ≤ 4094 := by
      have := eyeScan_count_le (o := o) hS
      omega
    rw [result] at regs
    constructor <;> rw [regs]
    case opening => exact opening.trans (congrArg₂ _ high.symm low.symm)
    case high => exact high.symm ▸ high0
    case low => exact low.symm ▸ low0
    case count => exact (Nat.mod_le _ _).trans vcnt
    case default => nofun
  · rw [result] at regs
    constructor <;> rw [regs]
    case opening => rfl
    case high => exact le_refl (0 : Int)
    case low => exact le_refl (0 : Int)
    case count => exact Nat.zero_le _
    case default => exact fun _ => ⟨rfl, rfl, rfl, rfl, rfl, rfl⟩

/-- Settles O55: only a search writes the eye registers, and one that completes from a sound state was accepted. -/
theorem everyStepKeepsEyeCoherent : Obligations.EveryStepKeepsEyeCoherent := by
  intro s t sound h hstep
  obtain ⟨-, atReset, -⟩ := soundAtReset
  rcases step_results hstep with ⟨-, rfl⟩ | ⟨op, i, ⟨-, busy, -⟩, latched, decoded, rfl⟩ | same
  · exact atReset.congr (.refl _)
  · have hacc : Accepted i s := sound.accepted busy latched decoded
    rcases effect_results i s with ⟨search, same⟩ | ⟨-, same⟩ | ⟨-, same⟩ | same
    · have reads : ReadsSps i ∧ ReadsX i := by
        rcases List.mem_pair.mp search with rfl | rfl <;> simp [ReadsSps, ReadsX]
      exact (eyeCoherent_searched (one_le_sps_of_accepted reads.1 hacc) (xlen_le_of_accepted reads.2 hacc)).congr same
    · exact State.EyeCoherent.congr (s := s.measured) { h with } same
    · exact State.EyeCoherent.congr (s := s.thresholded) { h with } same
    · exact h.congr same
  · exact h.congr same

/-! #### The metrics and centre registers (R50, R59) -/

theorem State.MetricsCoherent.congr {s t : State} (h : s.MetricsCoherent) (same : SameResults s.regs t.regs) :
    t.MetricsCoherent where
  opening := by rw [same.emMaxOpen, same.emMinHigh, same.emMaxLow]; exact h.opening
  high := by rw [same.emMinHigh]; exact h.high
  low := by rw [same.emMaxLow]; exact h.low
  order := by rw [same.emMinOpen, same.emMaxOpen]; exact h.order

theorem State.CentresSorted.congr {s t : State} (h : s.CentresSorted) (same : SameResults s.regs t.regs) :
    t.CentresSorted := by
  unfold State.CentresSorted
  rw [same.centLo, same.centHi]
  exact h

theorem samples_getD_range (s : State) (i : Nat) :
    Config.minw ≤ s.samples.getD i 0 ∧ s.samples.getD i 0 ≤ Config.maxw := by
  rcases Nat.lt_or_ge i s.samples.length with h | h
  · rw [samples_getD s (by simpa using h)]
    exact x_range s i
  · rw [List.getD_eq_default _ _ h]
    decide

/-- The levels of any offset, under any SPS: the high one from samples above 0, the low one from the others. -/
theorem metricOffset_levels_range (s : State) (S o : Nat) :
    (0 ≤ orZero (metricOffset s.samples S o).minHigh ∧ orZero (metricOffset s.samples S o).minHigh ≤ Config.maxw) ∧
      Config.minw ≤ orZero (metricOffset s.samples S o).maxLow ∧ orZero (metricOffset s.samples S o).maxLow ≤ 0 := by
  have high := leastOrZero_min? (f := fun c => s.samples.getD c 0)
    (cs := (offsetIndices s.samples.length S o).filter (isHigh s.samples)) fun _ => Iff.rfl
  have low := greatestOrZero_max? (f := fun c => s.samples.getD c 0)
    (cs := (offsetIndices s.samples.length S o).filter fun c => !isHigh s.samples c) fun _ => Iff.rfl
  rw [metricOffset, foldl_metricSample, foldl_minSeen_none, foldl_maxSeen_none]
  constructor
  · rcases high.attained with ⟨c, hc, level⟩ | level
    · rw [← level]
      exact ⟨(of_decide_eq_true (List.mem_filter.mp hc).2).le, (samples_getD_range s c).2⟩
    · rw [level]
      decide
  · rcases low.attained with ⟨c, hc, level⟩ | level
    · have notHigh : isHigh s.samples c = false := by simpa using (List.mem_filter.mp hc).2
      rw [← level]
      exact ⟨(samples_getD_range s c).1, not_lt.mp (of_decide_eq_false notHigh)⟩
    · rw [level]
      decide

/-- EYEMET leaves coherent registers, whatever SPS is (log 12). -/
theorem metricsCoherent_measured (s : State) : s.measured.MetricsCoherent := by
  have metrics : MetricsBelow s.samples s.sps (s.sps - 1 + 1) (eyeMetrics s.samples s.sps) := metricsBelow_foldl _ _ _
  have regs : s.measured.regs = s.regs.withMetrics (eyeMetrics s.samples s.sps) := rfl
  generalize eyeMetrics s.samples s.sps = r at metrics regs
  obtain ⟨⟨high0, high1⟩, low0, low1⟩ := metricOffset_levels_range s s.sps r.best
  rw [← metrics.minHigh_eq] at high0 high1
  rw [← metrics.maxLow_eq] at low0 low1
  have opening : r.maxOpen = r.minHigh - r.maxLow := by
    rw [metrics.maxOpen_eq, metrics.minHigh_eq, metrics.maxLow_eq, Levels.opening]
  have order : r.minOpen ≤ r.maxOpen := (metrics.minOpen_le 0 (by omega)).trans (metrics.le_maxOpen 0 (by omega))
  have least : 0 ≤ r.minOpen := by
    obtain ⟨p, -, attained⟩ := metrics.minOpen_attained
    obtain ⟨⟨high, -⟩, -, low⟩ := metricOffset_levels_range s s.sps p
    rw [attained, Levels.opening]
    omega
  unfold Config.maxw at high1
  unfold Config.minw at low0
  have maxWord : ((wordOfInt r.maxOpen).toNat : Int) = r.maxOpen := toNat_wordOfInt (by omega) (by omega)
  have minWord : ((wordOfInt r.minOpen).toNat : Int) = r.minOpen := toNat_wordOfInt least (by omega)
  have highWord : (wordOfInt r.minHigh).toInt = r.minHigh := toInt_wordOfInt (by unfold Config.minw; omega) high1
  have lowWord : (wordOfInt r.maxLow).toInt = r.maxLow := toInt_wordOfInt low0 (by unfold Config.maxw; omega)
  constructor <;> rw [regs]
  case opening => rw [Regs.withMetrics_emMaxOpen, maxWord, Regs.withMetrics_emMinHigh, highWord,
    Regs.withMetrics_emMaxLow, lowWord, opening]
  case high => rw [Regs.withMetrics_emMinHigh, highWord]; exact high0
  case low => rw [Regs.withMetrics_emMaxLow, lowWord]; exact low1
  case order => rw [Regs.withMetrics_emMinOpen, Regs.withMetrics_emMaxOpen]; omega

theorem exists_isLeast {vs : List Int} (h : vs ≠ []) : ∃ mn, IsLeast { v | v ∈ vs } mn := by
  obtain ⟨mn, least⟩ := Option.isSome_iff_exists.mp (List.isSome_min?_iff.mpr h)
  exact ⟨mn, List.min?_eq_some_iff.mp least⟩

theorem exists_isGreatest {vs : List Int} (h : vs ≠ []) : ∃ mx, IsGreatest { v | v ∈ vs } mx := by
  obtain ⟨mx, greatest⟩ := Option.isSome_iff_exists.mp (List.isSome_max?_iff.mpr h)
  exact ⟨mx, List.max?_eq_some_iff.mp greatest⟩

/-- What the threshold search of a non-empty X leaves in its registers: the sorted centres of its last iteration, which lie
within any bounds of the data, and their midpoint (45_decoder.md R162, R163). -/
theorem thresholded_regs {s : State} (h : s.magnitudes ≠ []) :
    ∃ c : Int × Int, (∀ lo hi, (∀ v ∈ s.magnitudes, lo ≤ v ∧ v ≤ hi) → CentresBetween lo hi c) ∧
      s.thresholded.regs.centLo.toInt = min c.1 c.2 ∧ s.thresholded.regs.centHi.toInt = max c.1 c.2 ∧
      s.thresholded.thresh = (min c.1 c.2 + max c.1 c.2) / 2 ∧
      s.thresholded.regs.kmStat.iters.toNat ≤ s.kmIter := by
  obtain ⟨mn, least⟩ := exists_isLeast h
  obtain ⟨mx, greatest⟩ := exists_isGreatest h
  obtain ⟨k, conv, stops, result⟩ := kMeans_stopsAt least greatest
  have between (lo hi : Int) (data : ∀ v ∈ s.magnitudes, lo ≤ v ∧ v ≤ hi) :
      CentresBetween lo hi (s.centresAfter mn mx k) := centresAfter_between least greatest data k
  obtain ⟨low, high, mid⟩ := (between _ _ fun _ => magnitudes_range).words
  rw [State.thresh, State.thresholded_regs, result]
  exact ⟨_, between, low, high, mid, (Nat.mod_le _ _).trans stops.le_maxit⟩

/-- THRESH leaves its centres in order, whatever it was given. -/
theorem centresSorted_thresholded (s : State) : s.thresholded.CentresSorted := by
  unfold State.CentresSorted
  by_cases h : s.magnitudes = []
  · rw [State.thresholded_regs, h, kMeans_nil]
    exact le_refl (0 : Int)
  · obtain ⟨c, -, low, high, -⟩ := thresholded_regs h
    rw [low, high]
    exact min_le_max

/-- Settles O56: each group of registers is written whole, by results that agree whatever the operands were. -/
theorem everyStepKeepsResultsCoherent : Obligations.EveryStepKeepsResultsCoherent := by
  intro s t metrics centres hstep
  obtain ⟨-, -, metricsAtReset, centresAtReset, -⟩ := soundAtReset
  rcases step_results hstep with ⟨-, rfl⟩ | ⟨op, i, -, -, -, rfl⟩ | same
  · exact ⟨metricsAtReset.congr (.refl _), centresAtReset.congr (.refl _)⟩
  · rcases effect_results i s with ⟨-, same⟩ | ⟨-, same⟩ | ⟨-, same⟩ | same
    · exact ⟨State.MetricsCoherent.congr (s := s.searched) { metrics with } same,
        State.CentresSorted.congr (s := s.searched) centres same⟩
    · exact ⟨(metricsCoherent_measured s).congr same, State.CentresSorted.congr (s := s.measured) centres same⟩
    · exact ⟨State.MetricsCoherent.congr (s := s.thresholded) { metrics with } same,
        (centresSorted_thresholded s).congr same⟩
    · exact ⟨metrics.congr same, centres.congr same⟩
  · exact ⟨metrics.congr same, centres.congr same⟩

/-- The completion of THRESH or DECODE leaves the registers of the threshold search. -/
theorem exec_thresholded {i : Instr} {s : State} (hi : i = .thresh ∨ i = .decodeBits) (hb : s.status.busy = true) :
    ∃ t, exec i s = .next t ∧ t.thresh = s.thresholded.thresh ∧ SameResults s.thresholded.regs t.regs := by
  refine ⟨_, exec_busy hb, ?_⟩
  rcases hi with rfl | rfl
  · exact ⟨rfl, .refl _⟩
  · exact ⟨rfl, { SameResults.refl s.thresholded.regs with }⟩

/-- Settles O43: no iteration leaves the bounds of the data, and the midpoint lies between the centres. -/
theorem thresholdStaysWithinTheData : Obligations.ThresholdStaysWithinTheData := by
  intro i s hi hacc hlen
  obtain ⟨t, run, thresh, same⟩ := exec_thresholded hi hacc.1
  have data : s.magnitudes ≠ [] := List.length_pos_iff.mp ((magnitudes_length s).symm ▸ hlen)
  obtain ⟨c, between, low, high, mid, iters⟩ := thresholded_regs data
  refine ⟨t, run, same.kmStat ▸ iters, fun lo hi bounds => ?_⟩
  have centres : CentresBetween lo hi c := between lo hi fun v hv => by
    obtain ⟨j, hj, rfl⟩ := mem_magnitudes.mp hv
    exact bounds j hj
  unfold CentresBetween at centres
  rw [same.centLo, same.centHi, thresh, low, high, mid]
  omega

/-! #### The step of each cause (10_state.md R33) -/

section
variable {s t : State}

theorem Resetting.step (h : Resetting s) : step s = .next s.resetStep := by
  obtain ⟨rest, he⟩ := h
  exact step_settle (by rw [State.nextAction, he]; rfl)

/-- A completion that answers a next state is that of the latched command. -/
theorem Completing.step (h : Completing s) (hstep : step s = .next t) :
    ∃ op i, s.opLatch = some op ∧ decodeOp op = some i ∧ t = (effectOf i s).finish := by
  obtain ⟨hr, busy, he⟩ := h
  cases latch : s.opLatch.bind decodeOp with
  | none =>
    have stuck : s.nextAction = .stuck .badLatch := by
      rcases he with he | ⟨rest, he⟩ <;> simp [State.nextAction, he, State.engineAction, hr, busy, latch]
    simp [Machine.step, stuck] at hstep
  | some i =>
    obtain ⟨op, latched, decoded⟩ := Option.bind_eq_some_iff.mp latch
    rw [step_run (nextAction_complete he hr busy latched decoded), exec_busy busy] at hstep
    cases hstep
    exact ⟨op, i, latched, decoded, rfl⟩

theorem CompletingOneOf.step {is : List Instr} (h : CompletingOneOf is s) (hstep : step s = .next t) :
    ∃ i ∈ is, t = (effectOf i s).finish := by
  obtain ⟨completing, op, i, latched, decoded, hi⟩ := h
  obtain ⟨op', i', latched', decoded', rfl⟩ := completing.step hstep
  rw [latched] at latched'
  cases latched'
  rw [decoded] at decoded'
  cases decoded'
  exact ⟨i, hi, rfl⟩

theorem Accepting.step (h : Accepting s) : ∃ i, step s = .next ((s.accept (encode i)).answer .written) := by
  obtain ⟨idle, unlocked, i, ⟨hr, r, rest, he, hw, ht, hd⟩, checks⟩ := h
  refine ⟨i, ?_⟩
  rw [step_run (nextAction_command he hr ht hw idle (hd ▸ decode_encode i)), exec_accepted idle unlocked checks]

theorem Refusing.step (h : Refusing s) : ∃ e w, step s = .next ((s.errorEntry e w).answer .written) := by
  obtain ⟨idle, unlocked, w, ⟨hr, r, rest, he, hw, ht, rfl⟩, refused⟩ := h
  cases hd : decode r.wdata with
  | none =>
    refine ⟨.illegalOp, r.wdata, ?_⟩
    rw [step_settle (nextAction_illegal he hr ht hw idle hd), issue_idle_error _ _ idle unlocked]
  | some i =>
    cases hc : acceptanceCheck i s with
    | none => exact absurd hc (refused i (eq_encode_of_decode hd))
    | some e =>
      refine ⟨e, encode i, ?_⟩
      rw [step_run (nextAction_command he hr ht hw idle hd), exec_refused idle unlocked hc]

theorem Clearing.step {n : Nat} (h : Clearing n s) :
    ∃ v, v.getLsbD n = true ∧ step s = .next ((s.writeStatus v).answer .written) := by
  obtain ⟨idle, v, ⟨hr, r, rest, he, hw, ht, rfl⟩, hv⟩ := h
  exact ⟨_, hv, step_settle (nextAction_write he hr ht hw idle (by decide))⟩

theorem WritingWhileBusy.step (h : WritingWhileBusy s) : step s = .next (s.dropWrite.answer .written) := by
  obtain ⟨busy, a, v, hr, r, rest, he, hw, ht, -⟩ := h
  exact step_settle (nextAction_drop he hr ht hw busy)

end

/-! #### The flags (R26 to R34) -/

section
variable (i : Instr) (s : State)

@[simp] theorem effectOf_status_err : (effectOf i s).state.status.err = s.status.err := by
  obtain ⟨b, status, -⟩ := effect_status i s
  rw [status]

@[simp] theorem effectOf_status_errcode : (effectOf i s).state.status.errcode = s.status.errcode := by
  obtain ⟨b, status, -⟩ := effect_status i s
  rw [status]

@[simp] theorem effectOf_status_sat : (effectOf i s).state.status.sat = s.status.sat := by
  obtain ⟨b, status, -⟩ := effect_status i s
  rw [status]

@[simp] theorem effectOf_status_ebusy : (effectOf i s).state.status.ebusy = s.status.ebusy := by
  obtain ⟨b, status, -⟩ := effect_status i s
  rw [status]

@[simp] theorem effectOf_status_short : (effectOf i s).state.status.short = s.status.short := by
  obtain ⟨b, status, -⟩ := effect_status i s
  rw [status]

end

theorem effectOf_status_bank {i : Instr} (h : i ≠ .xchg) (s : State) :
    (effectOf i s).state.status.bank = s.status.bank := by
  obtain ⟨b, status, bank⟩ := effect_status i s
  rw [status, bank h]

section
variable {s t : State}

/-- BUSY (R27). -/
theorem Transition.busy_changed (h : Transition s t) :
    t.status.busy ≠ s.status.busy → Accepting s ∨ Completing s ∨ Resetting s := by
  cases h with
  | reset h => exact fun _ => .inr (.inr h)
  | complete h => exact fun _ => .inr (.inl h)
  | accept idle unlocked h checks => exact fun _ => .inl ⟨idle, unlocked, _, h, checks⟩
  | refuse | drop | clear | quiet => simp
  | write idle h notStatus => simp [writeTarget_status_of_ne notStatus]

/-- DONE (R28). -/
theorem Transition.done_changed (h : Transition s t) :
    t.status.done ≠ s.status.done → Completing s ∨ Accepting s ∨ Clearing 1 s ∨ Resetting s := by
  cases h with
  | reset h => exact fun _ => .inr (.inr (.inr h))
  | complete h => exact fun _ => .inl h
  | accept idle unlocked h checks => exact fun _ => .inr (.inl ⟨idle, unlocked, _, h, checks⟩)
  | @clear v idle h =>
    cases hv : v.getLsbD 1 with
    | true => exact fun _ => .inr (.inr (.inl ⟨idle, v, h, hv⟩))
    | false => simp_all [Status.writeOneToClear_eq]
  | refuse | drop | quiet => simp
  | write idle h notStatus => simp [writeTarget_status_of_ne notStatus]

/-- ERR and ERRCODE (R29). -/
theorem Transition.err_changed (h : Transition s t) :
    t.status.err ≠ s.status.err ∨ t.status.errcode ≠ s.status.errcode → Refusing s ∨ Clearing 2 s ∨ Resetting s := by
  cases h with
  | reset h => exact fun _ => .inr (.inr h)
  | refuse h => exact fun _ => .inl h
  | @clear v idle h =>
    cases hv : v.getLsbD 2 with
    | true => exact fun _ => .inr (.inl ⟨idle, v, h, hv⟩)
    | false => simp_all [Status.writeOneToClear_eq]
  | complete | accept | drop | quiet => simp
  | write idle h notStatus => simp [writeTarget_status_of_ne notStatus]

/-- SAT rises at a completion only (R30). -/
theorem Transition.sat_raised (h : Transition s t) (before : s.status.sat = false) (after : t.status.sat = true) :
    Completing s := by
  cases h with
  | reset => cases after
  | complete h => exact h
  | accept | refuse | drop | clear | quiet => simp [before] at after
  | write idle h notStatus => simp [writeTarget_status_of_ne notStatus, before] at after

/-- SAT is sticky (R30). -/
theorem Transition.sat_cleared (h : Transition s t) (before : s.status.sat = true) (after : t.status.sat = false) :
    Clearing 3 s ∨ Resetting s := by
  cases h with
  | reset h => exact .inr h
  | @clear v idle h =>
    cases hv : v.getLsbD 3 with
    | true => exact .inl ⟨idle, v, h, hv⟩
    | false => simp_all [Status.writeOneToClear_eq]
  | complete | accept | refuse | drop | quiet => simp [before] at after
  | write idle h notStatus => simp [writeTarget_status_of_ne notStatus, before] at after

/-- EBUSY (R31). -/
theorem Transition.ebusy_changed (h : Transition s t) :
    t.status.ebusy ≠ s.status.ebusy → WritingWhileBusy s ∨ Clearing 4 s ∨ Resetting s := by
  cases h with
  | reset h => exact fun _ => .inr (.inr h)
  | drop h => exact fun _ => .inl h
  | @clear v idle h =>
    cases hv : v.getLsbD 4 with
    | true => exact fun _ => .inr (.inl ⟨idle, v, h, hv⟩)
    | false => simp_all [Status.writeOneToClear_eq]
  | complete | accept | refuse | quiet => simp
  | write idle h notStatus => simp [writeTarget_status_of_ne notStatus]

/-- SHORT rises at a completion only (R32). -/
theorem Transition.short_raised (h : Transition s t) (before : s.status.short = false) (after : t.status.short = true) :
    Completing s := by
  cases h with
  | reset => cases after
  | complete h => exact h
  | accept => cases after
  | refuse | drop | clear | quiet => simp [before] at after
  | write idle h notStatus => simp [writeTarget_status_of_ne notStatus, before] at after

/-- SHORT stays until the next acceptance (R32). -/
theorem Transition.short_cleared (h : Transition s t) (before : s.status.short = true)
    (after : t.status.short = false) : Accepting s ∨ Resetting s := by
  cases h with
  | reset h => exact .inr h
  | accept idle unlocked h checks => exact .inl ⟨idle, unlocked, _, h, checks⟩
  | complete | refuse | drop | clear | quiet => simp [before] at after
  | write idle h notStatus => simp [writeTarget_status_of_ne notStatus, before] at after

/-- BANK (R34). -/
theorem Transition.bank_changed (h : Transition s t) :
    t.status.bank ≠ s.status.bank → CompletingOneOf [.xchg] s ∨ Resetting s := by
  cases h with
  | reset h => exact fun _ => .inr h
  | @complete op i h latched decoded =>
    by_cases hi : i = .xchg
    · exact fun _ => .inl ⟨h, op, i, latched, decoded, List.mem_singleton.mpr hi⟩
    · simp [effectOf_status_bank hi]
  | accept | refuse | drop | clear | quiet => simp
  | write idle h notStatus => simp [writeTarget_status_of_ne notStatus]

end

/-! #### KM_STAT and EYE_STAT (R51, R54) -/

section
variable {s t : State}

theorem step_kmStat_changed (h : step s = .next t) (changed : t.regs.kmStat ≠ s.regs.kmStat) :
    CompletingOneOf [.thresh, .decodeBits] s ∨ Resetting s := by
  rcases step_results h with ⟨resetting, -⟩ | ⟨op, i, completing, latched, decoded, rfl⟩ | same
  · exact .inr resetting
  · rcases effect_results i s with ⟨-, same⟩ | ⟨-, same⟩ | ⟨hi, -⟩ | same
    · exact absurd same.kmStat changed
    · exact absurd same.kmStat changed
    · exact .inl ⟨completing, op, i, latched, decoded, hi⟩
    · exact absurd same.kmStat changed
  · exact absurd same.kmStat changed

theorem step_eyeStat_changed (h : step s = .next t) (changed : t.regs.eyeStat ≠ s.regs.eyeStat) :
    CompletingOneOf [.eyesrch, .recover] s ∨ Resetting s := by
  rcases step_results h with ⟨resetting, -⟩ | ⟨op, i, completing, latched, decoded, rfl⟩ | same
  · exact .inr resetting
  · rcases effect_results i s with ⟨hi, -⟩ | ⟨-, same⟩ | ⟨-, same⟩ | same
    · exact .inl ⟨completing, op, i, latched, decoded, hi⟩
    · exact absurd same.eyeStat changed
    · exact absurd same.eyeStat changed
    · exact absurd same.eyeStat changed
  · exact absurd same.eyeStat changed

/-- After a reset step every flag is 0. -/
theorem Resetting.status (h : Resetting s) (hstep : Machine.step s = .next t) : t.status = State.reset.status := by
  rw [h.step] at hstep
  cases hstep
  rfl

theorem Accepting.status (h : Accepting s) (hstep : Machine.step s = .next t) : t.status = s.status.accepted := by
  obtain ⟨i, run⟩ := h.step
  rw [run] at hstep
  cases hstep
  rfl

theorem Completing.status (h : Completing s) (hstep : Machine.step s = .next t) :
    t.status.busy = false ∧ t.status.done = true ∧ (s.status.sat = true → t.status.sat = true) := by
  obtain ⟨op, i, -, -, rfl⟩ := h.step hstep
  exact ⟨rfl, rfl, fun sat => by simp [sat]⟩

theorem Refusing.status (h : Refusing s) (hstep : Machine.step s = .next t) : t.status.err = true := by
  obtain ⟨e, w, run⟩ := h.step
  rw [run] at hstep
  cases hstep
  rfl

theorem Clearing.status {n : Nat} (h : Clearing n s) (hstep : Machine.step s = .next t) :
    ∃ v, v.getLsbD n = true ∧ t.status = s.status.writeOneToClear v := by
  obtain ⟨v, hv, run⟩ := h.step
  rw [run] at hstep
  cases hstep
  exact ⟨v, hv, rfl⟩

theorem WritingWhileBusy.status (h : WritingWhileBusy s) (hstep : Machine.step s = .next t) :
    t.status.ebusy = true := by
  rw [h.step] at hstep
  cases hstep
  rfl

end

/-- Settles O51: what sets and clears a flag by the step of that cause, and that nothing else changes it by the cases of a
step. -/
theorem everyFlagFollowsItsTable : Obligations.EveryFlagFollowsItsTable := by
  intro s t h
  have cases := step_transition h
  refine ⟨⟨fun a => ?_, ?_, cases.busy_changed⟩, ⟨fun c => (c.status h).2.1, ?_, cases.done_changed⟩,
    ⟨fun r => r.status h, ?_, cases.err_changed⟩, ⟨fun c => (c.status h).2.2, ?_, cases.sat_raised, cases.sat_cleared⟩,
    ⟨fun w => w.status h, ?_, cases.ebusy_changed⟩, ⟨?_, cases.short_raised, cases.short_cleared⟩,
    ⟨fun x => ?_, fun r => ?_, cases.bank_changed⟩, step_kmStat_changed h, step_eyeStat_changed h⟩
  · rw [a.status h, Status.accepted_busy]
  · rintro (c | r)
    · exact (c.status h).1
    · rw [r.status h]; rfl
  · rintro (a | c | r)
    · rw [a.status h, Status.accepted_done]
    · obtain ⟨v, hv, status⟩ := c.status h
      simp [status, Status.writeOneToClear_eq, hv]
    · rw [r.status h]; rfl
  · rintro (c | r)
    · obtain ⟨v, hv, status⟩ := c.status h
      simp [status, Status.writeOneToClear_eq, hv]
    · rw [r.status h]; exact ⟨rfl, rfl⟩
  · rintro (c | r)
    · obtain ⟨v, hv, status⟩ := c.status h
      simp [status, Status.writeOneToClear_eq, hv]
    · rw [r.status h]; rfl
  · rintro (c | r)
    · obtain ⟨v, hv, status⟩ := c.status h
      simp [status, Status.writeOneToClear_eq, hv]
    · rw [r.status h]; rfl
  · rintro (a | r)
    · rw [a.status h, Status.accepted_short]
    · rw [r.status h]; rfl
  · obtain ⟨i, hi, rfl⟩ := x.step h
    cases List.mem_singleton.mp hi
    rfl
  · rw [r.status h]; rfl

/-! #### One command from its CMD write to its completion (10_state.md R61, R62) -/

theorem exec_events {i : Instr} {s t : State} (h : exec i s = .next t) : t.events = s.events.tail := by
  cases hb : s.status.busy with
  | false =>
    rw [exec_idle hb] at h
    cases h
    exact issue_events s _ _
  | true =>
    rw [exec_busy hb] at h
    cases h
    obtain ⟨-, -, -, -, -, -, -, -, -, events, -⟩ := effect_completes i s
    exact events

/-- A fetch word that holds a command's word is the host's CMD write of it. -/
theorem withFetchWord_encode (s : State) (i : Instr) :
    s.withFetchWord 32 (encode i).toNat = { s with events := .bus (cmdWrite (encode i)) :: s.events } := by
  have word : BitVec.ofNat 32 ((encode i).toNat % 2 ^ 32) = encode i := by
    rw [Nat.mod_eq_of_lt (encode i).isLt, BitVec.ofNat_toNat, BitVec.setWidth_eq]
  rw [State.withFetchWord, word]

/-- Settles O7: the next event is the command's own, in all three places, and exec takes it off the list. -/
theorem stepRunsTheDecodedCommand : Obligations.StepRunsTheDecodedCommand := by
  refine ⟨fun s w i rest he hr hb hd _ => ?_, fun s op i he hr hb latched decoded => ?_, fun s i hr hb => ?_,
    fun s t i => exec_events⟩
  · exact step_run (nextAction_command he hr (cmdWrite_target w) rfl hb hd)
  · exact step_run (nextAction_complete he hr hb latched decoded)
  · rw [withFetchWord_encode]
    exact step_run (nextAction_command rfl hr (cmdWrite_target _) rfl hb (decode_encode i))

/-- Settles O8: the acceptance of R62, then the completion of the opcode it latched. -/
theorem acceptThenComplete : Obligations.AcceptThenComplete := by
  intro i s rest hb hl hr hc he
  have accepts : step s = .next ((s.accept (encode i)).answer .written) := by
    rw [step_cmdWrite_legal he hr hb (decode_encode i), hc, issue_idle_ok _ hb hl]
  have state := answer_of_events (t := s.accept (encode i)) he .written
  have events : ((s.accept (encode i)).answer .written).events = .engine :: rest := by rw [state]
  have completes : step ((s.accept (encode i)).answer .written) = exec i ((s.accept (encode i)).answer .written) :=
    step_run (nextAction_complete (.inr ⟨rest, events⟩) hr rfl rfl (decodeOp_opField_encode i))
  obtain ⟨busy, done, -, -, -, -, -, -, -, tail, -⟩ := effect_completes i ((s.accept (encode i)).answer .written)
  refine ⟨_, accepts, ⟨rfl, (acceptanceCheck_congr i (by rfl)).trans hc⟩, state, completes, _,
    completes.trans (exec_busy rfl), busy, done, ?_⟩
  rw [tail, events, List.tail_cons]

/-! #### A transaction while BUSY = 1 (10_state.md R63) -/

/-- A transaction while BUSY = 1 leaves registers, memories and OPLATCH; a legal write sets EBUSY. -/
theorem step_bus_busy {s : State} {r : BusReq} {rest : List Event} (hb : s.status.busy = true) (hr : s.rst = false)
    (he : s.events = .bus r :: rest) :
    ∃ n reply, step s = .next { s with
        status := { s.status with ebusy := s.status.ebusy || (r.we && r.target.isSome) }, events := rest,
        reply := reply, free := n } ∧
      (r.we = false → ∀ a, r.target = some a → a.validWhileBusy = true → reply = .read (s.readTarget a)) := by
  cases ht : r.target with
  | none =>
    refine ⟨s.free + 1, .busError (Config.unspecifiedWord s.free), ?_, nofun⟩
    rw [step_settle (nextAction_error he hr ht), State.busError, answer_of_events he]
    simp
  | some a =>
    cases hw : r.we with
    | false =>
      rw [step_settle (nextAction_read he hr ht hw)]
      cases valid : a.validWhileBusy with
      | false =>
        have read : s.busRead a = { s.answer (.read (Config.unspecifiedWord s.free)) with free := s.free + 1 } :=
          if_pos (by simp [hb, valid])
        refine ⟨s.free + 1, .read (Config.unspecifiedWord s.free), ?_, fun _ b hab hv => ?_⟩
        · rw [read, answer_of_events he]
          simp
        · cases hab
          simp [valid] at hv
      | true =>
        refine ⟨s.free, .read (s.readTarget a), ?_, fun _ b hab _ => ?_⟩
        · simp [busRead_of_valid valid, answer_of_events he]
        · cases hab
          rfl
    | true =>
      refine ⟨s.free, .written, ?_, nofun⟩
      rw [step_settle (nextAction_drop he hr ht hw hb), answer_of_events (t := s.dropWrite) he]
      simp [State.dropWrite]

/-- Settles O13: by the target and the direction of the transaction; the thirteen registers are those valid while BUSY. -/
theorem busyHostStepsChangeOnlyEbusy : Obligations.BusyHostStepsChangeOnlyEbusy := by
  intro s r rest hb hr he
  obtain ⟨n, reply, run, reads⟩ := step_bus_busy hb hr he
  refine ⟨_, run, rfl, rfl, rfl, rfl, rfl, rfl, hr, rfl, rfl, fun hw g hg ht => reads hw _ ht ?_⟩
  have valid : ∀ g ∈ [Reg.id, .cmd, .status, .ien, .cfg, .sps, .alpha, .xlen, .tlen, .smoothA, .kmIter, .kmEps,
      .errInfo], g.validWhileBusy = true := by decide
  exact valid g hg

/-! #### Reset (70_reset_and_hazards.md R200, R201) -/

/-- While `rst` is high a transaction is taken off the list unanswered (log 8). -/
theorem step_bus_held {s : State} {r : BusReq} {rest : List Event} (hr : s.rst = true)
    (he : s.events = .bus r :: rest) : step s = .next (s.answer .none) :=
  step_settle (by simp only [State.nextAction, he, State.busAction, hr, if_true])

theorem step_rst_low {s : State} {rest : List Event} (he : s.events = .rst false :: rest) :
    step s = .next { s.answer .none with rst := false } :=
  step_settle (by rw [State.nextAction, he]; rfl)

/-- Settles O15: the reset step from whatever state, and the two other events of the pin. -/
theorem resetStepRestoresTheTable : Obligations.ResetStepRestoresTheTable := by
  refine ⟨fun s rest he => ?_, fun s r rest hr he => ?_, fun s rest he => ?_⟩
  · refine ⟨s.resetStep, Resetting.step ⟨rest, he⟩, rfl, rfl, rfl, rfl, rfl, rfl, ?_, rfl, rfl, rfl, rfl⟩
    rw [State.resetStep_events, he, List.tail_cons]
  · rw [step_bus_held hr he, answer_of_events he]
  · rw [step_rst_low he, answer_of_events he]

/-! #### Bus errors (20_memory.md R71, R73) -/

theorem regAt_ne_none {i : Nat} (h : i < 30) : regAt i ≠ none := by
  interval_cases i <;> nofun

/-- An address names nothing exactly in the unmapped ranges. -/
theorem targetAt_eq_none_iff {a : Nat} (h : a < 65536) : targetAt a = none ↔ Unmapped a := by
  unfold targetAt Unmapped
  split
  · next reg =>
    rw [Option.map_eq_none_iff]
    exact iff_of_false (regAt_ne_none (by omega)) (by omega)
  · repeat' split
    · exact iff_of_false nofun (by omega)
    · exact iff_of_false nofun (by omega)
    · exact iff_of_false nofun (by omega)
    · exact iff_of_false nofun (by omega)
    · exact iff_of_true rfl (by omega)

/-- The three causes of a bus error, and no other (R73). -/
theorem target_eq_none_iff (r : BusReq) :
    r.target = none ↔ r.size ≠ 2#2 ∨ r.addr.toNat % 4 ≠ 0 ∨ Unmapped r.addr.toNat := by
  unfold BusReq.target
  split
  · next bad => exact iff_of_true rfl (bad.imp_right .inl)
  · next good =>
    obtain ⟨size, aligned⟩ := not_or.mp good
    rw [targetAt_eq_none_iff r.addr.isLt, or_iff_right size, or_iff_right aligned]

theorem issue_reply (s : State) (w : Word) (e : Option ErrCode) : (s.issue w e).reply = .written := rfl

/-- A transaction that reaches something is not answered with an error. -/
theorem step_reply_of_target {s t : State} {r : BusReq} {rest : List Event} {a : Target} (hr : s.rst = false)
    (he : s.events = .bus r :: rest) (ht : r.target = some a) (h : step s = .next t) :
    t.reply = .written ∨ ∃ v, t.reply = .read v := by
  cases hw : r.we with
  | false =>
    rw [step_settle (nextAction_read he hr ht hw)] at h
    cases h
    refine .inr ?_
    unfold State.busRead
    split
    · exact ⟨_, rfl⟩
    · exact ⟨_, rfl⟩
  | true =>
    refine .inl ?_
    cases hb : s.status.busy with
    | true =>
      rw [step_settle (nextAction_drop he hr ht hw hb)] at h
      cases h
      rfl
    | false =>
      by_cases hc : a = .reg .cmd
      · subst hc
        cases hd : decode r.wdata with
        | none =>
          rw [step_settle (nextAction_illegal he hr ht hw hb hd)] at h
          cases h
          exact issue_reply s _ _
        | some i =>
          rw [step_run (nextAction_command he hr ht hw hb hd), exec_idle hb] at h
          cases h
          exact issue_reply s _ _
      · rw [step_settle (nextAction_write he hr ht hw hb hc)] at h
        cases h
        rfl

/-- Settles O17: the transactions that reach nothing are those of the three causes, and every other is answered otherwise. -/
theorem busErrorsChangeNothing : Obligations.BusErrorsChangeNothing := by
  intro s r rest hr he
  rw [← target_eq_none_iff]
  refine ⟨fun ht => ⟨Config.unspecifiedWord s.free, ?_⟩, fun ht t v h => ?_⟩
  · rw [step_settle (nextAction_error he hr ht), State.busError, answer_of_events he]
  · obtain ⟨a, ha⟩ := Option.ne_none_iff_exists'.mp ht
    rcases step_reply_of_target hr he ha h with reply | ⟨w, reply⟩
    · rw [reply]
      nofun
    · rw [reply]
      nofun
end Sys2Proof.Machine

end

/-! ### Words, registers and windows (00_scope.md R10, 10_state.md R23 to R60, 20_memory.md R74, R75) -/

section

namespace Sys2Proof.Machine

/-! #### Saturation, and the table of command words -/

theorem sat_of_gt {v : Int} (h : v > Config.maxw) : sat v = Config.maxw := if_pos h

theorem sat_of_lt {v : Int} (h : v < Config.minw) : sat v = Config.minw :=
  (if_neg (not_lt.mpr (h.le.trans (by decide)))).trans (if_pos h)

theorem sat_of_range {v : Int} (h : Config.minw ≤ v ∧ v ≤ Config.maxw) : sat v = v :=
  (if_neg (not_lt.mpr h.2)).trans (if_neg (not_lt.mpr h.1))

/-- Settles O2: by the three ranges of R10; a clamped value survives its word. -/
theorem satClampsToTheWordRange : Obligations.SatClampsToTheWordRange := fun v =>
  ⟨sat_of_gt, sat_of_lt, sat_of_range, clips_iff v, toInt_wordOfInt (sat_range v).1 (sat_range v).2⟩

/-- Settles O5: rows of R92, and words that break R94. -/
theorem tableWordsDecode : Obligations.TableWordsDecode :=
  ⟨decode_encode .xchg, decode_encode .kgen, decode_encode .txshape, decode_encode .rxsmooth, decode_encode .recover,
    decode_encode .eyemet, decode_encode .decodeBits, decode_encode .bresize, by decide, by decide, by decide⟩

/-! #### A register as the sum of its fields (R23 to R60) -/

/-- A field stands at the weight of its lowest bit. -/
theorem toNat_append_eq_add {m n : Nat} (x : BitVec m) (y : BitVec n) : (x ++ y).toNat = x.toNat * 2 ^ n + y.toNat := by
  rw [BitVec.toNat_append, ← Nat.shiftLeft_add_eq_or_of_lt y.isLt, Nat.shiftLeft_eq]

theorem flagBit_toNat (b : Bool) : (flagBit b).toNat = b.toNat := BitVec.toNat_ofBool b

theorem toNat_setWidth_word {n : Nat} (h : n ≤ 32) (x : BitVec n) : (x.setWidth 32).toNat = x.toNat := by
  rw [BitVec.toNat_setWidth, Nat.mod_eq_of_lt (x.isLt.trans_le (Nat.pow_le_pow_right (by decide) h))]

theorem Status.toWord_toNat (f : Status) :
    f.toWord.toNat = f.busy.toNat + 2 * f.done.toNat + 4 * f.err.toNat + 8 * f.sat.toNat + 16 * f.ebusy.toNat +
      32 * f.short.toNat + 64 * f.bank.toNat + 256 * f.errcode.toNat := by
  simp only [Status.toWord, toNat_append_eq_add, flagBit_toNat, BitVec.toNat_zero]
  omega

theorem Ien.toWord_toNat (f : Ien) : f.toWord.toNat = 2 * f.doneIe.toNat + 4 * f.errIe.toNat := by
  simp only [Ien.toWord, toNat_append_eq_add, flagBit_toNat, BitVec.toNat_zero]
  omega

theorem Cfg.toWord_toNat (f : Cfg) : f.toWord.toNat = f.fkind.toNat + 16 * f.enc.toNat := by
  simp only [Cfg.toWord, toNat_append_eq_add, BitVec.toNat_zero]
  omega

theorem KmStat.toWord_toNat (f : KmStat) : f.toWord.toNat = f.iters.toNat + 256 * f.conv.toNat := by
  simp only [KmStat.toWord, toNat_append_eq_add, flagBit_toNat, BitVec.toNat_zero]
  omega

theorem EyeStat.toWord_toNat (f : EyeStat) :
    f.toWord.toNat = f.found.toNat + 2 * f.hiSeen.toNat + 4 * f.loSeen.toNat + 65536 * f.vcnt.toNat := by
  simp only [EyeStat.toWord, toNat_append_eq_add, flagBit_toNat, BitVec.toNat_zero]
  omega

theorem registersReadTheirFields (s : State) : RegistersReadTheirFields s := by
  have narrow {n : Nat} (x : BitVec n) (h : n ≤ 32) : (x.setWidth 32).toNat = x.toNat := toNat_setWidth_word h x
  exact ⟨rfl, rfl, s.status.toWord_toNat, s.regs.ien.toWord_toNat, s.regs.cfg.toWord_toNat,
    narrow s.regs.sps (by decide), rfl, narrow s.regs.xlen (by decide), narrow s.regs.ylen (by decide),
    narrow s.regs.clen (by decide), narrow s.regs.blen (by decide), narrow s.regs.tlen (by decide), rfl,
    narrow s.regs.kmIter (by decide), rfl, rfl, rfl, rfl, s.regs.kmStat.toWord_toNat, narrow s.regs.bestOff (by decide),
    rfl, rfl, rfl, s.regs.eyeStat.toWord_toNat, narrow s.regs.emBestOff (by decide), rfl, rfl, rfl, rfl, rfl⟩

/-! #### Idle reads (20_memory.md R74) -/

/-- An idle read returns what its address names and changes nothing. -/
theorem step_read_idle {s : State} {r : BusReq} {rest : List Event} {a : Target} (hr : s.rst = false)
    (hb : s.status.busy = false) (he : s.events = .bus r :: rest) (ht : r.target = some a) (hw : r.we = false) :
    step s = .next { s with events := rest, reply := .read (s.readTarget a) } := by
  rw [step_settle (nextAction_read he hr ht hw), busRead_of_idle hb, answer_of_events he]

/-- Settles O18: the fields of each register by their weights, the reads by the target of each address. -/
theorem idleReadsReturnTheState : Obligations.IdleReadsReturnTheState :=
  ⟨registersReadTheirFields, fun _ _ hr hb =>
    ⟨fun g he => step_read_idle hr hb he (regTarget g false 0#32) rfl,
      fun _ hi he => step_read_idle hr hb he (sourceTarget hi false 0#32) rfl,
      fun _ hi he => step_read_idle hr hb he (destTarget hi false 0#32) rfl,
      fun _ hk he => step_read_idle hr hb he (coefTarget hk false 0#32) rfl⟩⟩

/-! #### Idle writes (20_memory.md R75) -/

theorem step_write_idle {s : State} {r : BusReq} {rest : List Event} {a : Target} (hr : s.rst = false)
    (hb : s.status.busy = false) (he : s.events = .bus r :: rest) (ht : r.target = some a) (hw : r.we = true)
    (hc : a ≠ .reg .cmd) : step s = .next ((s.writeTarget a r.wdata).answer .written) :=
  step_settle (nextAction_write he hr ht hw hb hc)

/-- Settles O20: the word written reads back, and the other bytes of its memory and the other memories are as before. -/
theorem idleWritesReachOneWord : Obligations.IdleWritesReachOneWord := by
  intro s v rest hr hb
  refine ⟨fun i hi he => ?source, fun i hi he => ?dest, fun k hk he => ?coef⟩
  case source =>
    have source : (s.setSource (s.source.putWord (4 * i) v)).source = s.source.putWord (4 * i) v :=
      State.setSource_source _ _
    refine ⟨_, step_write_idle hr hb he (sourceTarget hi true v) rfl (by simp),
      (congrArg (Memory.word · (4 * i)) source).trans (Memory.word_putWord_same _ _ _),
      fun a ha => (congrArg (Memory.byte · a) source).trans (Memory.byte_putWord_other _ _ ha), ?_, ?_, ?_, ?_, ?_, ?_⟩ <;>
    simp [State.writeTarget, SameBytes]
  case dest =>
    have dest : (s.setDest (s.dest.putWord (4 * i) v)).dest = s.dest.putWord (4 * i) v := State.setDest_dest _ _
    refine ⟨_, step_write_idle hr hb he (destTarget hi true v) rfl (by simp),
      (congrArg (Memory.word · (4 * i)) dest).trans (Memory.word_putWord_same _ _ _),
      fun a ha => (congrArg (Memory.byte · a) dest).trans (Memory.byte_putWord_other _ _ ha), ?_, ?_, ?_, ?_, ?_, ?_⟩ <;>
    simp [State.writeTarget, SameBytes]
  case coef =>
    refine ⟨_, step_write_idle hr hb he (coefTarget hk true v) rfl (by simp), Memory.word_putWord_same _ _ _,
      fun a ha => Memory.byte_putWord_other _ _ ha, fun _ => rfl, fun _ => rfl, fun _ => rfl, rfl, rfl, rfl⟩

/-! #### Register writes (10_state.md R23, 20_memory.md R75) -/

/-- A field of the low `n` bits of a register keeps the low `n` bits of what is written. -/
theorem setWidth_setWidth_eq_and {n : Nat} (h : n ≤ 32) (v : Word) :
    (v.setWidth n).setWidth 32 = v &&& BitVec.ofNat 32 (2 ^ n - 1) := by
  have mask : 2 ^ n - 1 < 2 ^ 32 := by
    have := Nat.pow_le_pow_right (n := 2) (by decide) h
    omega
  apply BitVec.eq_of_toNat_eq
  rw [toNat_setWidth_word h, BitVec.toNat_setWidth, BitVec.toNat_and, BitVec.toNat_ofNat, Nat.mod_eq_of_lt mask,
    Nat.and_two_pow_sub_one_eq_mod]

theorem ienOfWord_toWord (v : Word) : (ienOfWord v).toWord = v &&& 0x00000006#32 := by
  refine BitVec.eq_of_getLsbD_eq fun i hi => ?_
  rw [Ien.toWord_getLsbD]
  interval_cases i <;> simp [ienOfWord]

theorem cfgOfWord_toWord (v : Word) : (cfgOfWord v).toWord = v &&& 0x00000033#32 := by
  refine BitVec.eq_of_getLsbD_eq fun i hi => ?_
  unfold Cfg.toWord cfgOfWord
  iterate 3 rw [BitVec.getLsbD_append]
  interval_cases i <;> simp

/-- An RW register keeps the implemented bits of what is written. -/
theorem readReg_writeReg_same {g : Reg} {m : Word} (h : writeMask g = some m) (s : State) (v : Word) :
    (s.writeReg g v).readReg g = v &&& m := by
  have whole : v = v &&& 0xFFFFFFFF#32 := (BitVec.and_allOnes (x := v)).symm
  cases g with
  | ien => cases h; exact ienOfWord_toWord v
  | cfg => cases h; exact cfgOfWord_toWord v
  | sps | bestOff => cases h; exact setWidth_setWidth_eq_and (n := 7) (by decide) v
  | xlen | tlen => cases h; exact setWidth_setWidth_eq_and (n := 13) (by decide) v
  | clen => cases h; exact setWidth_setWidth_eq_and (n := 9) (by decide) v
  | kmIter => cases h; exact setWidth_setWidth_eq_and (n := 8) (by decide) v
  | alpha | smoothA | kmEps | thresh => cases h; exact whole
  | _ => cases h

/-- An RO register ignores what is written. -/
theorem writeReg_of_readOnly {g : Reg} (h : writeMask g = none) (hs : g ≠ .status) (s : State) (v : Word) :
    s.writeReg g v = s := by
  cases g with
  | status => exact absurd rfl hs
  | ien | cfg | sps | alpha | xlen | clen | tlen | smoothA | kmIter | kmEps | thresh | bestOff => cases h
  | _ => rfl

/-- A register write reaches no other register. -/
theorem readReg_writeReg_other {g g' : Reg} (h : g' ≠ g) (hs : g ≠ .status) (s : State) (v : Word) :
    (s.writeReg g v).readReg g' = s.readReg g' := by
  cases g with
  | status => exact absurd rfl hs
  | ien | cfg | sps | alpha | xlen | clen | tlen | smoothA | kmIter | kmEps | thresh | bestOff =>
    cases g' <;> simp_all [State.readReg, State.writeReg]
  | _ => rfl

/-- A write to a register other than STATUS changes registers only. -/
theorem writeReg_eq {g : Reg} (hs : g ≠ .status) (s : State) (v : Word) :
    s.writeReg g v = { s with regs := (s.writeReg g v).regs } := by
  cases g with
  | status => exact absurd rfl hs
  | _ => rfl

/-- Settles O21: by the mask of the register written. -/
theorem registerWritesKeepReservedBits : Obligations.RegisterWritesKeepReservedBits := by
  intro s g v rest hr hb hc hs he
  have run : step s = .next ((s.writeReg g v).answer .written) :=
    step_write_idle hr hb he (regTarget g true v) rfl (by simpa using hc)
  refine ⟨_, run, fun m hm => readReg_writeReg_same hm s v, fun hm => ?_, fun g' hg' => readReg_writeReg_other hg' hs s v,
    ?_, ?_, ?_, ?_, ?_, ?_⟩
  · rw [State.answer_regs, writeReg_of_readOnly hm hs]
  · rw [State.answer_status, writeReg_eq hs]
  · rw [State.answer_buf0, writeReg_eq hs]
  · rw [State.answer_buf1, writeReg_eq hs]
  · rw [State.answer_coef, writeReg_eq hs]
  · rw [State.answer_bits, writeReg_eq hs]
  · rw [State.answer_opLatch, writeReg_eq hs]
end Sys2Proof.Machine

end

/-! ### The kernel and the two convolutions (41_txfilter.md R111 to R119, 42_rxfilter.md R132, R133) -/

section

namespace Sys2Proof.Machine

/-! #### KGEN (R115) -/

/-- KGEN's kernel fits the coefficient memory and CLEN (R115). -/
theorem generatedKernel_length_le {s : State} (h : Accepted .kgen s) : 6 * s.sps + 1 ≤ 385 := by
  obtain ⟨-, sps⟩ := sps_range_of_accepted (by simp [ReadsSps]) h
  omega

theorem kgenEffect_finish_cWord {s : State} {k : Nat} (h : k ≤ 6 * s.sps) :
    (kgenEffect s).finish.cWord k = tapGen (if s.fkind = 1 then .rc else .rrc) s.sps s.alpha k := by
  have hk : k < (generatedKernel s.kernelKind s.sps s.alpha).length := by
    rw [generatedKernel_length]
    omega
  rw [finish_cWord rfl hk]
  simp only [generatedKernel, List.getElem_map, List.getElem_range, State.kernelKind]

/-- Settles O26: the words stored are those of TapGen, whose mirror and whose accuracy they inherit. -/
theorem kgenLoadsTheKernel : Obligations.KgenLoadsTheKernel := by
  refine ⟨checksAre_kgen, fun s hacc => ?_⟩
  have fits := generatedKernel_length_le hacc
  obtain ⟨sps1, sps64⟩ := sps_range_of_accepted (by simp [ReadsSps]) hacc
  have alpha : s.alpha ≤ Config.one := by
    obtain ⟨-, -, -, accepted⟩ := checksAre_kgen s
    obtain ⟨cfg, -, -⟩ := accepted.mp hacc.2
    exact Nat.not_lt.mp fun large => cfg (.inr (.inr (.inr large)))
  have clen : (kgenEffect s).finish.clen = 6 * s.sps + 1 := by
    have len : (generatedKernel s.kernelKind s.sps s.alpha).length % 2 ^ 9 = 6 * s.sps + 1 := by
      rw [generatedKernel_length, Nat.mod_eq_of_lt (by omega)]
    simpa [State.clen, kgenEffect] using len
  refine ⟨(kgenEffect s).finish, exec_busy hacc.1,
    (effect_completes .kgen s).congr Bool.false_eq_true.to_iff Bool.false_eq_true.to_iff, keepsAllButC_of_writeC rfl, rfl,
    clen, fun k => kgenEffect_finish_cWord, fun k hk => ?symmetric, fun tapTol accurate k hk => ?accurate⟩
  case symmetric =>
    rw [kgenEffect_finish_cWord hk, kgenEffect_finish_cWord (Nat.sub_le _ _), tapGen_symm _ _ _ _ hk]
  case accurate =>
    rw [State.c, kgenEffect_finish_cWord hk]
    exact accurate.2 _ _ _ _ sps1 sps64 alpha hk

/-! #### The ideal kernel (R112 to R114) -/

theorem tapTime_centre (S : Nat) : tapTime S (3 * S) = 0 := by simp [tapTime]

/-- The pulse of R113 does not vanish at its centre, so its prototype can be scaled by it. -/
theorem rootPulse_zero_pos {α : ℝ} (h0 : 0 ≤ α) (h1 : α ≤ 1) : 0 < rootPulse α 0 := by
  rw [rootPulse, if_pos rfl]
  rcases h0.eq_or_lt with rfl | pos
  · norm_num
  · have : 0 < 4 * α / Real.pi := div_pos (by linarith) Real.pi_pos
    linarith

theorem prototypeOf_zero (kind : KernelKind) {α : ℝ} (h0 : 0 ≤ α) (h1 : α ≤ 1) : prototypeOf kind α 0 = 1 := by
  cases kind with
  | rc => exact if_pos rfl
  | rrc => exact div_self (rootPulse_zero_pos h0 h1).ne'

theorem prototypeOf_neg (kind : KernelKind) (α t : ℝ) : prototypeOf kind α (-t) = prototypeOf kind α t := by
  cases kind with
  | rc => exact raisedCosine_neg α t
  | rrc => exact congrArg (· / rootPulse α 0) (rootPulse_neg α t)

theorem rollOff_range {A : Nat} (h : A ≤ 16777216) : 0 ≤ rollOff A ∧ rollOff A ≤ 1 := by
  have : (A : ℝ) ≤ 16777216 := by exact_mod_cast h
  exact ⟨by unfold rollOff; positivity, div_le_one_of_le₀ this (by norm_num)⟩

theorem prototypeTap_centre (kind : KernelKind) (S : Nat) {A : Nat} (h : A ≤ 16777216) :
    prototypeTap kind S A (3 * S) = 1 := by
  obtain ⟨h0, h1⟩ := rollOff_range h
  rw [prototypeTap, tapTime_centre, prototypeOf_zero kind h0 h1]

theorem prototypeTap_mirror (kind : KernelKind) (S A : Nat) {k : Nat} (h : k ≤ 6 * S) :
    prototypeTap kind S A (6 * S - k) = prototypeTap kind S A k := by
  rw [prototypeTap, tapTime_mirror S k h, prototypeOf_neg, prototypeTap]

theorem prototypeEnergy_pos (kind : KernelKind) (S : Nat) {A : Nat} (h : A ≤ 16777216) :
    0 < prototypeEnergy kind S A := by
  have centre := sq_prototypeTap_le kind S A (3 * S) (by omega)
  rw [prototypeTap_centre kind S h] at centre
  linarith

/-- Settles O27: the energy divided out is that of the prototype, which is positive because its centre is 1. -/
theorem idealKernelHasEnergyS : Obligations.IdealKernelHasEnergyS := by
  intro kind S A _ _ hA
  have energy := prototypeEnergy_pos kind S hA
  refine ⟨prototypeTap_centre kind S hA, fun k hk => ?_, ?_⟩
  · rw [idealTap, idealTap, prototypeTap_mirror kind S A hk]
  · calc ∑ k ∈ Finset.range (6 * S + 1), idealTap kind S A k ^ 2
        = ∑ k ∈ Finset.range (6 * S + 1), prototypeTap kind S A k ^ 2 * (S / prototypeEnergy kind S A) := by
          refine Finset.sum_congr rfl fun k _ => ?_
          rw [idealTap, div_pow, mul_pow, Real.sq_sqrt (Nat.cast_nonneg S), Real.sq_sqrt energy.le, mul_div_assoc]
      _ = prototypeEnergy kind S A * (S / prototypeEnergy kind S A) := by rw [← Finset.sum_mul, prototypeEnergy]
      _ = S := mul_div_cancel₀ _ energy.ne'

/-- The time of a tap is a multiple of the reciprocal of the roll-off exactly when an integer product says so: the singular
cases of R112 (n = 2) and R113 (n = 4). -/
theorem singular_iff {S A k n : Nat} (hS : 1 ≤ S) (hn : 0 < n) :
    (0 < rollOff A ∧ |tapTime S k| = 1 / (n * rollOff A)) ↔ n * (A : Int) * |(k : Int) - 3 * S| = S * 2 ^ 24 := by
  have hS' : (0 : ℝ) < S := by exact_mod_cast hS
  have hn' : (0 : ℝ) < n := by exact_mod_cast hn
  have time : |tapTime S k| = |(k : ℝ) - 3 * S| / S := by rw [tapTime, abs_div, abs_of_pos hS']
  have reals : (n * (A : Int) * |(k : Int) - 3 * S| = S * 2 ^ 24) ↔
      (n : ℝ) * A * |(k : ℝ) - 3 * S| = S * 16777216 := by
    rw [← Int.cast_inj (α := ℝ)]
    push_cast
    rfl
  rw [reals, time]
  rcases Nat.eq_zero_or_pos A with rfl | hA
  · have zero : rollOff 0 = 0 := by simp [rollOff]
    refine iff_of_false (fun ⟨pos, _⟩ => by simp [zero] at pos) fun eq => ?_
    have : (S : ℝ) * 16777216 = 0 := by rw [← eq]; simp
    exact absurd this (by positivity)
  · have hA' : (0 : ℝ) < A := by exact_mod_cast hA
    have pos : 0 < rollOff A := by unfold rollOff; positivity
    rw [and_iff_right pos, rollOff, div_eq_div_iff hS'.ne' (by positivity)]
    constructor
    · intro eq
      linear_combination 16777216 * eq
    · intro eq
      linear_combination eq / 16777216

/-- Settles O28: both singular cases are one, with factor 2 and factor 4. -/
theorem singularTapsAreAnIntegerTest : Obligations.SingularTapsAreAnIntegerTest := fun _ _ _ hS _ =>
  ⟨by exact_mod_cast singular_iff (n := 2) hS (by decide), by exact_mod_cast singular_iff (n := 4) hS (by decide)⟩

/-! #### TXSHAPE over the symbols (R119) -/

/-- A sum in which index `i` alone can contribute. -/
theorem sum_range_ite_eq_single {N i : Nat} {p : Nat → Prop} [DecidablePred p] (f : Nat → Int) (hi : i < N) (hp : p i)
    (unique : ∀ j, p j → j = i) : (∑ j ∈ Finset.range N, if p j then f j else 0) = f i := by
  rw [Finset.sum_eq_single i (fun j _ hj => if_neg fun h => hj (unique j h))
    fun absent => absurd (Finset.mem_range.mpr hi) absent, if_pos hp]

theorem sum_range_ite_eq_zero {N : Nat} {p : Nat → Prop} [DecidablePred p] (f : Nat → Int) (none : ∀ j < N, ¬p j) :
    (∑ j ∈ Finset.range N, if p j then f j else 0) = 0 :=
  Finset.sum_eq_zero fun j hj => if_neg (none j (Finset.mem_range.mp hj))

/-- The zero-inserted input at index m is the sum over the symbols, of which at most one stands there (R117). -/
theorem upsampled_eq_sum {s : State} (hS : 1 ≤ s.sps) (m : Int) :
    upsampled s m = ∑ j ∈ Finset.range s.xlen, if m = (j * s.sps : Int) then s.x j else 0 := by
  have pos : (0 : Int) < s.sps := by exact_mod_cast hS
  unfold upsampled
  split
  · next inside =>
    obtain ⟨nonneg, below, multiple⟩ := inside
    have quotient : 0 ≤ m / s.sps := Int.ediv_nonneg nonneg pos.le
    have at_m : m = ((m / s.sps).toNat * s.sps : Int) := by
      rw [Int.toNat_of_nonneg quotient, Int.ediv_mul_cancel (Int.dvd_of_emod_eq_zero multiple)]
    have symbol : (m / s.sps).toNat < s.xlen := by
      have : m / s.sps < s.xlen := Int.ediv_lt_of_lt_mul pos below
      omega
    refine (sum_range_ite_eq_single _ symbol at_m fun j hj => ?_).symm
    exact_mod_cast mul_right_cancel₀ pos.ne' (hj.symm.trans at_m)
  · next outside =>
    refine (sum_range_ite_eq_zero _ fun j hj hm => outside ?_).symm
    rw [hm]
    refine ⟨by positivity, mul_lt_mul_of_pos_right (by exact_mod_cast hj) pos, Int.mul_emod_left _ _⟩

/-- The tap that symbol `j` meets at the delayed index `p`, when the kernel reaches that far. -/
theorem sum_taps_of_symbol (s : State) (p j : Int) (v : Int) :
    (∑ k ∈ Finset.range s.clen, if p - k = j then s.c k * v else 0) =
      if 0 ≤ p - j ∧ p - j ≤ (s.clen : Int) - 1 then s.c (p - j).toNat * v else 0 := by
  split
  · next inside =>
    exact sum_range_ite_eq_single (i := (p - j).toNat) (fun k => s.c k * v) (by omega) (by omega) (by omega)
  · next outside => exact sum_range_ite_eq_zero _ (by omega)

/-- The full convolution gathers, symbol by symbol, the taps that meet it (R119, "Equivalently"). -/
theorem fullConvolution_eq_symbolSum {s : State} (hS : 1 ≤ s.sps) (n : Nat) :
    fullConvolution s (n + s.clen / 2 : Nat) = symbolSum s n := by
  calc fullConvolution s (n + s.clen / 2 : Nat)
      = ∑ k ∈ Finset.range s.clen, ∑ j ∈ Finset.range s.xlen,
          if ((n + s.clen / 2 : Nat) : Int) - k = (j * s.sps : Int) then s.c k * s.x j else 0 := by
        refine Finset.sum_congr rfl fun k _ => ?_
        rw [upsampled_eq_sum hS, Finset.mul_sum]
        exact Finset.sum_congr rfl fun j _ => mul_ite_zero _ _ _
    _ = symbolSum s n := by
        rw [Finset.sum_comm]
        exact Finset.sum_congr rfl fun j _ => sum_taps_of_symbol s _ _ _

/-- Settles O31: TXSHAPE's samples are the full convolution (O30), which is the sum over the symbols. -/
theorem txshapeSumsOverSymbols : Obligations.TxshapeSumsOverSymbols := by
  intro s t hacc run n hn
  obtain ⟨u, run', -, -, -, -, samples⟩ := txshapeConvolvesAndTrims.2 s hacc
  rw [run] at run'
  cases run'
  rw [samples n hn, fullConvolution_eq_symbolSum (one_le_sps_of_accepted (by simp [ReadsSps]) hacc)]

/-! #### RXMATCH (R132, R133) -/

theorem checksAre_rxmatch : ChecksAre .rxmatch SpsOutside XlenOver (fun s => s.clen = 0 ∨ s.clen > 385) :=
  fun s => firstError_iff (badSps_iff s) (badXlen_iff s) (badKernel_iff s)

/-- The filter's accumulation is that of the rule: tap `k` meets the sample `k` places before the delayed index. -/
theorem matchSum_eq_matchedSum (s : State) (n : Nat) : matchSum s.kernel s.samples n = matchedSum s n := by
  rw [matchSum, sumTo_eq_sum, matchedSum, kernel_length, samples_length]
  refine Finset.sum_congr rfl fun k hk => ?_
  have hk : k < s.clen := Finset.mem_range.mp hk
  have cond : (k ≤ n + s.clen / 2 ∧ n + s.clen / 2 - k < s.xlen) ↔
      (0 ≤ (n + s.clen / 2 : Int) - k ∧ (n + s.clen / 2 : Int) - k < s.xlen) := by omega
  rw [if_congr cond rfl rfl]
  split
  · next inside =>
    have index : ((n + s.clen / 2 : Int) - k).toNat = n + s.clen / 2 - k := by omega
    rw [index, kernel_getD s (by omega), samples_getD s (by omega)]
  · rfl

theorem matchFilter_eq (s : State) :
    matchFilter s.kernel s.samples = (List.range s.xlen).map fun n => rnd (matchedSum s n) := by
  simp only [matchFilter, matchSum_eq_matchedSum, samples_length]

theorem matchLong_saturated_iff (s : State) :
    (matchLong s).saturated = true ↔ ∃ n, n < s.xlen ∧ clips (rnd (matchedSum s n)) = true := by
  simp [matchLong, matchFilter_eq]

/-- Settles O34: the accumulation is that of the rule, and a saturated sample survives its word. -/
theorem rxmatchConvolvesTheReversedKernel : Obligations.RxmatchConvolvesTheReversedKernel := by
  refine ⟨checksAre_rxmatch, fun s hacc hlong => ?_⟩
  have fits : s.xlen ≤ 4096 := xlen_le_of_accepted (by simp [ReadsX]) hacc
  have effect : effectOf .rxmatch s = matchLong s := unlessShort_of_le matchLong hlong
  have len : ((matchFilter s.kernel s.samples).map fun v => wordOfInt (sat v)).length = s.xlen := by simp [matchFilter]
  obtain ⟨frame, regs, ylen, words⟩ := finish_writeY (s := s) (c := effectOf .rxmatch s)
    (congrArg Completion.state effect) (by omega)
  refine ⟨(effectOf .rxmatch s).finish, exec_busy hacc.1,
    (effect_completes .rxmatch s).congr (effect ▸ matchLong_saturated_iff s) (effect ▸ Bool.false_eq_true.to_iff),
    frame, regs, ylen.trans len, fun n hn => ?_⟩
  have word : (effectOf .rxmatch s).finish.yWord n = wordOfInt (sat (rnd (matchedSum s n))) := by
    rw [words n (len ▸ hn)]
    simp [matchFilter_eq]
  rw [State.y, word, toInt_wordOfInt (sat_range _).1 (sat_range _).2]
end Sys2Proof.Machine

end

/-! ### What a completion reads and writes (10_state.md R38, R55 to R57, 20_memory.md R78, 70_reset_and_hazards.md R212) -/

section

namespace Sys2Proof.Machine

/-! #### The operands and the stores of a command -/

/-- All that a command reads is the same in both states: registers, BANK, X below XLEN, C below CLEN, and the bits that
BRESIZE keeps. -/
structure SameOperands (s t : State) : Prop where
  regs : t.regs = s.regs
  bank : t.status.bank = s.status.bank
  samples : t.samples = s.samples
  kernel : t.kernel = s.kernel
  resizedBits : t.resizedBits = s.resizedBits

theorem SameOperands.refl (s : State) : SameOperands s s := ⟨rfl, rfl, rfl, rfl, rfl⟩

/-- The commands without an output memory. -/
def WritesRegisters (i : Instr) : Prop := i ∈ [Instr.nop, .xchg, .eyesrch, .eyemet, .thresh]

/-- The commands that write Y (10_state.md R55). -/
def WritesY (i : Instr) : Prop :=
  i ∈ [Instr.txfilt, .txhold, .txshape, .rxfilt, .rxmatch, .rxsmooth, .rxmavg, .decim, .recover]

/-- The commands that write B (10_state.md R57). -/
def WritesB (i : Instr) : Prop := i ∈ [Instr.decideBits, .decodeBits, .bresize]

/-- `c` stores in `s` what `d` stores in `t`, in the memory that command `i` writes. -/
inductive StoreAlike (i : Instr) (s t : State) : Completion → Completion → Prop
  | registers (hi : WritesRegisters i) (f : Regs → Regs) (flip : Bool → Bool) (saturated short : Bool) :
      StoreAlike i s t
        ⟨{ s with regs := f s.regs, status := { s.status with bank := flip s.status.bank } }, saturated, short⟩
        ⟨{ t with regs := f t.regs, status := { t.status with bank := flip t.status.bank } }, saturated, short⟩
  | y (hi : WritesY i) (f : Regs → Regs) (ys : List Word) (saturated short : Bool) :
      StoreAlike i s t ⟨({ s with regs := f s.regs }).writeY ys, saturated, short⟩
        ⟨({ t with regs := f t.regs }).writeY ys, saturated, short⟩
  | b (hi : WritesB i) (f : Regs → Regs) (bs : List Bool) (saturated short : Bool) :
      StoreAlike i s t ⟨({ s with regs := f s.regs }).writeB bs, saturated, short⟩
        ⟨({ t with regs := f t.regs }).writeB bs, saturated, short⟩
  | c (hi : i = .kgen) (ws : List Word) (saturated short : Bool) :
      StoreAlike i s t ⟨s.writeC ws, saturated, short⟩ ⟨t.writeC ws, saturated, short⟩

section
variable {s t : State}

theorem SameOperands.sps (h : SameOperands s t) : t.sps = s.sps := congrArg (·.sps.toNat) h.regs

theorem SameOperands.xlen (h : SameOperands s t) : t.xlen = s.xlen := congrArg (·.xlen.toNat) h.regs

theorem SameOperands.enc (h : SameOperands s t) : t.enc = s.enc := congrArg (·.cfg.enc.toNat) h.regs

theorem SameOperands.fkind (h : SameOperands s t) : t.fkind = s.fkind := congrArg (·.cfg.fkind.toNat) h.regs

theorem SameOperands.alpha (h : SameOperands s t) : t.alpha = s.alpha := congrArg (·.alpha.toNat) h.regs

theorem SameOperands.smoothA (h : SameOperands s t) : t.smoothA = s.smoothA := congrArg (·.smoothA.toNat) h.regs

theorem SameOperands.bestOff (h : SameOperands s t) : t.bestOff = s.bestOff := congrArg (·.bestOff.toNat) h.regs

theorem SameOperands.thresh (h : SameOperands s t) : t.thresh = s.thresh := congrArg (·.thresh.toInt) h.regs

theorem SameOperands.ternary (h : SameOperands s t) : t.ternary = s.ternary := by
  rw [State.ternary, h.enc, State.ternary]

theorem SameOperands.magnitudes (h : SameOperands s t) : t.magnitudes = s.magnitudes := by
  rw [State.magnitudes, h.ternary, h.samples, State.magnitudes]

theorem SameOperands.absSaturates (h : SameOperands s t) : t.absSaturates = s.absSaturates := by
  rw [State.absSaturates, h.ternary, h.samples, State.absSaturates]

theorem SameOperands.decodedBits (h : SameOperands s t) (T : Int) : t.decodedBits T = s.decodedBits T := by
  rw [State.decodedBits, h.enc, h.magnitudes, State.decodedBits]

theorem SameOperands.eyeSearch (h : SameOperands s t) :
    Machine.eyeSearch t.samples t.sps = Machine.eyeSearch s.samples s.sps := by rw [h.samples, h.sps]

theorem SameOperands.kMeans (h : SameOperands s t) :
    Machine.kMeans t.magnitudes t.kmIter t.kmEps = Machine.kMeans s.magnitudes s.kmIter s.kmEps := by
  rw [h.magnitudes, State.kmIter, State.kmEps, h.regs]
  rfl

/-- A filter's short-input path stores X itself, so it too depends on the operands alone. -/
theorem StoreAlike.unlessShort {i : Instr} (hi : WritesY i) (h : SameOperands s t) {filter : State → Completion}
    (hf : StoreAlike i s t (filter s) (filter t)) :
    StoreAlike i s t (Machine.unlessShort filter s) (Machine.unlessShort filter t) := by
  unfold Machine.unlessShort
  rw [h.xlen, h.sps, h.samples]
  split
  · exact .y hi id _ _ _
  · exact hf

theorem rxmatch_storeAlike {i : Instr} (hi : WritesY i) (h : SameOperands s t) :
    StoreAlike i s t (rxmatchEffect s) (rxmatchEffect t) := by
  refine .unlessShort hi h ?_
  unfold matchLong
  rw [h.samples, h.kernel]
  exact .y hi id _ _ _

theorem rxsmooth_storeAlike {i : Instr} (hi : WritesY i) (h : SameOperands s t) :
    StoreAlike i s t (rxsmoothEffect s) (rxsmoothEffect t) := by
  refine .unlessShort hi h ?_
  unfold smoothLong
  rw [h.samples, h.smoothA]
  exact .y hi id _ _ _

theorem rxmavg_storeAlike {i : Instr} (hi : WritesY i) (h : SameOperands s t) :
    StoreAlike i s t (rxmavgEffect s) (rxmavgEffect t) := by
  refine .unlessShort hi h ?_
  unfold averageLong
  rw [h.samples, h.sps]
  exact .y hi id _ _ _

theorem txhold_storeAlike {i : Instr} (hi : WritesY i) (h : SameOperands s t) :
    StoreAlike i s t (txholdEffect s) (txholdEffect t) := by
  unfold txholdEffect
  rw [h.samples, h.sps, h.xlen]
  exact .y hi id _ _ _

theorem txshape_storeAlike {i : Instr} (hi : WritesY i) (h : SameOperands s t) :
    StoreAlike i s t (txshapeEffect s) (txshapeEffect t) := by
  unfold txshapeEffect
  rw [h.samples, h.kernel, h.sps, h.xlen]
  exact .y hi id _ _ _

/-- The effect of a command is determined by its operands. -/
theorem effect_storeAlike (i : Instr) (h : SameOperands s t) : StoreAlike i s t (effectOf i s) (effectOf i t) := by
  cases i with
  | nop => exact .registers (by simp [WritesRegisters]) id id _ _
  | xchg =>
    exact .registers (by simp [WritesRegisters]) (fun g => { g with xlen := g.ylen, ylen := g.xlen }) not _ _
  | kgen =>
    show StoreAlike _ s t (kgenEffect s) (kgenEffect t)
    unfold kgenEffect State.kernelKind
    rw [h.fkind, h.sps, h.alpha]
    exact .c rfl _ _ _
  | txfilt =>
    show StoreAlike _ s t (txfiltEffect s) (txfiltEffect t)
    unfold txfiltEffect
    rw [h.fkind]
    split
    · exact txhold_storeAlike (by simp [WritesY]) h
    · exact txshape_storeAlike (by simp [WritesY]) h
  | txhold => exact txhold_storeAlike (by simp [WritesY]) h
  | txshape => exact txshape_storeAlike (by simp [WritesY]) h
  | rxfilt =>
    show StoreAlike _ s t (rxfiltEffect s) (rxfiltEffect t)
    unfold rxfiltEffect
    rw [h.ternary, h.fkind]
    split
    · exact rxsmooth_storeAlike (by simp [WritesY]) h
    · split
      · exact rxmavg_storeAlike (by simp [WritesY]) h
      · exact rxmatch_storeAlike (by simp [WritesY]) h
  | rxmatch => exact rxmatch_storeAlike (by simp [WritesY]) h
  | rxsmooth => exact rxsmooth_storeAlike (by simp [WritesY]) h
  | rxmavg => exact rxmavg_storeAlike (by simp [WritesY]) h
  | eyesrch =>
    show StoreAlike _ s t (eyesrchEffect s) (eyesrchEffect t)
    unfold eyesrchEffect State.searched
    rw [h.eyeSearch, h.xlen, h.sps]
    exact .registers (by simp [WritesRegisters]) (·.withEye _) id _ _
  | decim =>
    show StoreAlike _ s t (decimEffect s) (decimEffect t)
    unfold decimEffect
    rw [h.samples, h.xlen, h.sps, h.bestOff]
    exact .y (by simp [WritesY]) id _ _ _
  | recover =>
    show StoreAlike _ s t (recoverEffect s) (recoverEffect t)
    unfold recoverEffect State.searched
    rw [h.eyeSearch, h.samples, h.xlen, h.sps]
    exact .y (by simp [WritesY]) (·.withEye _) _ _ _
  | eyemet =>
    show StoreAlike _ s t (eyemetEffect s) (eyemetEffect t)
    unfold eyemetEffect
    rw [h.samples, h.xlen, h.sps]
    exact .registers (by simp [WritesRegisters]) (·.withMetrics _) id _ _
  | thresh =>
    show StoreAlike _ s t (threshEffect s) (threshEffect t)
    unfold threshEffect State.thresholded
    rw [h.kMeans, h.absSaturates, h.xlen]
    exact .registers (by simp [WritesRegisters]) (·.withThreshold _) id _ _
  | decideBits =>
    show StoreAlike _ s t (decideEffect s) (decideEffect t)
    unfold decideEffect
    rw [h.decodedBits, h.thresh, h.absSaturates, h.xlen]
    exact .b (by simp [WritesB]) id _ _ _
  | decodeBits =>
    have bits : t.thresholded.decodedBits t.thresholded.thresh = s.thresholded.decodedBits s.thresholded.thresh := by
      have T : t.thresholded.thresh = s.thresholded.thresh := by
        rw [State.thresh, State.thresholded_regs, h.kMeans]
        rfl
      rw [T]
      exact h.decodedBits _
    show StoreAlike _ s t (decodeEffect s) (decodeEffect t)
    unfold decodeEffect decideEffect
    rw [bits, h.absSaturates, h.xlen]
    unfold State.thresholded
    rw [h.kMeans]
    exact .b (by simp [WritesB]) (·.withThreshold _) _ _ _
  | bresize =>
    show StoreAlike _ s t (bresizeEffect s) (bresizeEffect t)
    unfold bresizeEffect
    rw [h.resizedBits]
    exact .b (by simp [WritesB]) id _ _ _

end

/-! #### Which memories a completion writes (R55 to R57) -/

theorem WritesY.not_mem_bufferless {i : Instr} (h : WritesY i) :
    i ∉ [Instr.nop, .xchg, .kgen, .eyesrch, .eyemet, .thresh, .decideBits, .decodeBits, .bresize] := by
  unfold WritesY at h
  cases i <;> simp at h ⊢

/-- Settles O49: by the memory that each command stores in. -/
theorem commandsWriteOnlyTheirMemory : Obligations.CommandsWriteOnlyTheirMemory := by
  intro i s t hb run
  rw [exec_busy hb] at run
  cases run
  have stores := effect_storeAlike i (.refl s)
  generalize effectOf i s = c at stores
  cases stores with
  | registers hi =>
    exact ⟨by split <;> rfl, fun _ => rfl, fun _ => rfl, fun _ => ⟨rfl, rfl⟩⟩
  | y hi =>
    exact ⟨by split <;> simp_all, fun _ => by simp, fun _ => by simp, fun none => absurd none hi.not_mem_bufferless⟩
  | b hi => exact ⟨by split <;> rfl, fun _ => rfl, fun other => absurd hi other, fun _ => ⟨rfl, rfl⟩⟩
  | c hi => exact ⟨by split <;> rfl, fun other => absurd hi other, fun _ => rfl, fun _ => ⟨rfl, rfl⟩⟩

/-! #### What a completion leaves in two states with the same operands -/

theorem State.source_eq_cond (s : State) : s.source = cond s.status.bank s.buf1 s.buf0 := (Bool.cond_eq_ite _ _ _).symm

theorem State.dest_eq_cond (s : State) : s.dest = cond s.status.bank s.buf0 s.buf1 := (Bool.cond_eq_ite _ _ _).symm

section
variable {i : Instr} {s t : State} {c d : Completion}

theorem StoreAlike.regs (h : StoreAlike i s t c d) (regs : t.regs = s.regs) : d.finish.regs = c.finish.regs := by
  cases h <;> simp [regs]

theorem StoreAlike.status (h : StoreAlike i s t c d) {e : Bool} (status : t.status = { s.status with ebusy := e }) :
    d.finish.status = { c.finish.status with ebusy := e } := by
  cases h <;> simp [status, Status.completed]

theorem StoreAlike.bits (h : StoreAlike i s t c d) (bits : t.bits = s.bits) (free : t.free = s.free) :
    d.finish.bits = c.finish.bits := by
  cases h <;> simp [bits, free]

/-- Y is what it was, or holds the same stored words, unless BANK changed. -/
theorem StoreAlike.dest (h : StoreAlike i s t c d) (status : t.status = s.status) (dest : t.dest = s.dest)
    (free : t.free = s.free) (bank : c.state.status.bank = s.status.bank) : d.finish.dest = c.finish.dest := by
  rw [Completion.finish_dest, Completion.finish_dest]
  cases h with
  | registers hi f flip =>
    rw [State.dest_eq_cond, State.dest_eq_cond, status] at dest ⊢
    rw [bank]
    exact dest
  | y => rw [State.writeY_dest, State.writeY_dest, free]
  | b | c => exact dest

theorem StoreAlike.coef (h : StoreAlike .kgen s t c d) (free : t.free = s.free) : d.finish.coef = c.finish.coef := by
  cases h with
  | registers hi | y hi | b hi => simp [WritesRegisters, WritesY, WritesB] at hi
  | c hi ws =>
    rw [Completion.finish_coef, State.writeC_coef, Completion.finish_coef, State.writeC_coef, free]

end

/-- Settles O50: the replaced memories agree on X below XLEN and C below CLEN, which are all the operands in them. -/
theorem commandsReadOnlyValidWords : Obligations.CommandsReadOnlyValidWords := by
  intro i s m k hb hx hc
  have operands : SameOperands s (({ s with coef := k }).setSource m) :=
    { regs := by simp
      bank := by simp
      samples := by
        have xlen : (({ s with coef := k }).setSource m).xlen = s.xlen := by simp [State.xlen]
        rw [State.samples, xlen]
        refine List.map_congr_left fun j hj => congrArg BitVec.toInt ?_
        rw [State.xWord, State.setSource_source]
        exact hx j (List.mem_range.mp hj)
      kernel := by
        have clen : (({ s with coef := k }).setSource m).clen = s.clen := by simp [State.clen]
        rw [State.kernel, clen]
        refine List.map_congr_left fun j hj => congrArg BitVec.toInt ?_
        rw [State.cWord, State.setSource_coef]
        exact hc j (List.mem_range.mp hj)
      resizedBits := by
        have blen : (({ s with coef := k }).setSource m).blen = s.blen := by simp [State.blen]
        rw [State.resizedBits, blen, State.tlen, State.setSource_regs]
        simp only [State.bBit, State.setSource_bits]
        rfl }
  have stores := effect_storeAlike i operands
  have dest : (({ s with coef := k }).setSource m).dest = s.dest := by rw [State.setSource_dest]; rfl
  refine ⟨_, _, exec_busy hb, exec_busy (by simpa using hb), stores.regs operands.regs,
    stores.status (e := (effectOf i s).finish.status.ebusy) (by simp), stores.bits (by simp) (by simp), fun hi => ?_, ?_⟩
  · exact stores.dest (by simp) dest (by simp) (effectOf_status_bank hi s)
  · rintro rfl
    exact stores.coef (by simp)

/-! #### Transactions between acceptance and completion (R212) -/

/-- Two completions that store alike from the same memories end alike, whatever numbers name the unspecified contents. -/
theorem StoreAlike.sameEndState {i : Instr} {s t : State} {c d : Completion} {e : Bool} (h : StoreAlike i s t c d)
    (regs : t.regs = s.regs) (status : t.status = { s.status with ebusy := e }) (buf0 : t.buf0 = s.buf0)
    (buf1 : t.buf1 = s.buf1) (coef : t.coef = s.coef) (bits : t.bits = s.bits) : SameEndState c.finish d.finish where
  regs := h.regs regs
  flags := by rw [h.status status]
  x := by
    have source : d.finish.source = c.finish.source := by
      rw [Completion.finish_source, Completion.finish_source]
      cases h with
      | y =>
        rw [State.writeY_source, State.writeY_source, State.source_eq_cond, State.source_eq_cond]
        simp [status, buf0, buf1]
      | registers | b | c =>
        rw [State.source_eq_cond, State.source_eq_cond]
        simp [status, buf0, buf1]
    exact fun j _ => congrArg (Memory.word · (4 * j)) source
  y := by
    cases h with
    | y hi f ys =>
      intro j hj
      have below : j < ys.length := by
        have := Nat.mod_le ys.length (2 ^ 13)
        simp [State.ylen] at hj
        omega
      rw [finish_yWord (ys := ys) rfl below, finish_yWord (ys := ys) rfl below]
    | registers | b | c => simp [State.yWord, State.dest_eq_cond, status, buf0, buf1]
  c := by
    cases h with
    | c hi ws =>
      intro j hj
      have below : j < ws.length := by
        have := Nat.mod_le ws.length (2 ^ 9)
        simp [State.clen] at hj
        omega
      rw [finish_cWord (ws := ws) rfl below, finish_cWord (ws := ws) rfl below]
    | registers | y | b => simp [State.cWord, coef]
  b := by
    cases h with
    | b hi f bs =>
      intro j hj
      have below : j < bs.length := by
        have := Nat.mod_le bs.length (2 ^ 13)
        simp [State.blen] at hj
        omega
      rw [finish_bBit (bs := bs) rfl below, finish_bBit (bs := bs) rfl below]
    | registers | y | c => simp [State.bBit, bits]

theorem stepTimes_one (s : State) : stepTimes 1 s = step s := by
  rw [stepTimes]
  cases step s <;> rfl

theorem stepTimes_succ_of_step {s t : State} (h : step s = .next t) (n : Nat) : stepTimes (n + 1) s = stepTimes n t := by
  rw [stepTimes, h]

/-- The state with what host transactions while BUSY = 1 can change: EBUSY, the answer, and the counter of free values. -/
def State.meanwhile (s : State) (ebusy : Bool) (n : Nat) (r : Reply) (es : List Event) : State :=
  { s with status := { s.status with ebusy := ebusy }, free := n, reply := r, events := es }

/-- Any transactions while BUSY = 1 lead to the event after them, with nothing else changed (10_state.md R63). -/
theorem stepTimes_busy {s : State} (hb : s.status.busy = true) (hr : s.rst = false) (rs : List BusReq) (es : List Event)
    (e : Bool) (n : Nat) (r : Reply) :
    ∃ e' n' r', stepTimes (rs.length + 1) (s.meanwhile e n r (rs.map .bus ++ es)) = step (s.meanwhile e' n' r' es) := by
  induction rs generalizing e n r with
  | nil => exact ⟨e, n, r, stepTimes_one _⟩
  | cons q rs ih =>
    obtain ⟨n', r', run, -⟩ := step_bus_busy (s := s.meanwhile e n r ((q :: rs).map .bus ++ es)) hb hr rfl
    obtain ⟨e'', n'', r'', rest⟩ := ih (e || (q.we && q.target.isSome)) n' r'
    exact ⟨e'', n'', r'', (stepTimes_succ_of_step run _).trans rest⟩

/-- Settles O14: the transactions leave the operands and the memories of the completion as they are. -/
theorem hostStepsMeanwhileDoNotMatter : Obligations.HostStepsMeanwhileDoNotMatter := by
  intro s i rs hb hr latched
  have completes (e : Bool) (n : Nat) (r : Reply) :
      step (s.meanwhile e n r [.engine]) = .next (effectOf i (s.meanwhile e n r [.engine])).finish := by
    have run : (s.meanwhile e n r [.engine]).nextAction = .run i :=
      nextAction_complete (.inr ⟨[], rfl⟩) hr hb latched (decodeOp_opField_encode i)
    rw [step_run run, exec_busy (s := s.meanwhile e n r [.engine]) hb]
  obtain ⟨e, n, r, run⟩ := stepTimes_busy hb hr rs [.engine] s.status.ebusy s.free s.reply
  have operands : SameOperands { s with events := [.engine] } (s.meanwhile e n r [.engine]) := ⟨rfl, rfl, rfl, rfl, rfl⟩
  exact ⟨_, _, completes s.status.ebusy s.free s.reply, run.trans (completes e n r),
    (effect_storeAlike i operands).sameEndState rfl rfl rfl rfl rfl rfl⟩

/-! #### ENC = HDB3 and ENC = AMI (R38, R166) -/

/-- The state with ENC = AMI. -/
def State.asAmi (s : State) : State := { s with regs := { s.regs with cfg := { s.regs.cfg with enc := 2#2 } } }

/-- The completion with ENC = AMI in its state. -/
def Completion.asAmi (c : Completion) : Completion := { c with state := c.state.asAmi }

theorem asAmi_writeY (s : State) (ys : List Word) : s.asAmi.writeY ys = (s.writeY ys).asAmi := by
  have bank : s.asAmi.status.bank = s.status.bank := rfl
  cases h : s.status.bank <;> rw [h] at bank <;> simp [State.writeY, State.setDest, h, bank] <;> rfl

theorem asAmi_issue (s : State) (w : Word) (e : Option ErrCode) : s.asAmi.issue w e = (s.issue w e).asAmi := by
  rcases issue_cases s w e with ⟨busy, issue⟩ | ⟨idle, locked, issue⟩ | ⟨idle, unlocked, c, rfl, issue⟩ |
    ⟨idle, unlocked, rfl, issue⟩
  · rw [issue, issue_busy (s := s.asAmi) w e busy]
    rfl
  · rw [issue, issue_locked (s := s.asAmi) w e idle locked]
    rfl
  · rw [issue, issue_idle_error (s := s.asAmi) w c idle unlocked]
    rfl
  · rw [issue, issue_idle_ok (s := s.asAmi) w idle unlocked]
    rfl

theorem unlessShort_asAmi {filter : State → Completion} {s : State} (h : filter s.asAmi = (filter s).asAmi) :
    unlessShort filter s.asAmi = (unlessShort filter s).asAmi := by
  rcases Nat.lt_or_ge s.xlen s.sps with short | long
  · rw [unlessShort_of_lt filter short, unlessShort_of_lt (s := s.asAmi) filter short, asAmi_writeY]
    rfl
  · rw [unlessShort_of_le filter long, unlessShort_of_le (s := s.asAmi) filter long, h]

section
variable (s : State)

theorem rxmatchEffect_asAmi : rxmatchEffect s.asAmi = (rxmatchEffect s).asAmi :=
  unlessShort_asAmi (by rw [matchLong, asAmi_writeY]; rfl)

theorem rxsmoothEffect_asAmi : rxsmoothEffect s.asAmi = (rxsmoothEffect s).asAmi :=
  unlessShort_asAmi (by rw [smoothLong, asAmi_writeY]; rfl)

theorem rxmavgEffect_asAmi : rxmavgEffect s.asAmi = (rxmavgEffect s).asAmi :=
  unlessShort_asAmi (by rw [averageLong, asAmi_writeY]; rfl)

theorem txholdEffect_asAmi : txholdEffect s.asAmi = (txholdEffect s).asAmi := by
  rw [txholdEffect, asAmi_writeY]
  rfl

theorem asAmi_searched : s.asAmi.searched = s.searched.asAmi := rfl

theorem txshapeEffect_asAmi : txshapeEffect s.asAmi = (txshapeEffect s).asAmi := by
  rw [txshapeEffect, asAmi_writeY]
  rfl

end

section
variable {s : State} (h : s.enc = 3)
include h

theorem ternary_of_hdb3 : s.ternary = true := (ternary_iff s).mpr (.inr h)

/-- AMI is ternary too, and the encodings are asked for nothing else but MANCHESTER. -/
theorem asAmi_ternary : s.asAmi.ternary = s.ternary := (ternary_of_hdb3 h).symm

theorem asAmi_magnitudes : s.asAmi.magnitudes = s.magnitudes := by
  rw [State.magnitudes, asAmi_ternary h, State.magnitudes]
  rfl

theorem asAmi_absSaturates : s.asAmi.absSaturates = s.absSaturates := by
  rw [State.absSaturates, asAmi_ternary h, State.absSaturates]
  rfl

theorem asAmi_decodedBits (T : Int) : s.asAmi.decodedBits T = s.decodedBits T := by
  rw [decodedBits_of_not_manchester (s := s.asAmi) (show (2 : Nat) ≠ 1 by decide),
    decodedBits_of_not_manchester (s := s) (by omega), asAmi_magnitudes h]

theorem asAmi_thresholded : s.asAmi.thresholded = s.thresholded.asAmi := by
  rw [State.thresholded, asAmi_magnitudes h]
  rfl

theorem asAmi_acceptanceCheck (i : Instr) : acceptanceCheck i s.asAmi = acceptanceCheck i s := by
  cases i with
  | rxfilt =>
    show checkRxfilt s.asAmi = checkRxfilt s
    rw [checkRxfilt, asAmi_ternary h]
    rfl
  | _ => rfl

theorem asAmi_effectOf (i : Instr) : effectOf i s.asAmi = (effectOf i s).asAmi := by
  cases i with
  | nop | xchg | kgen | eyesrch | eyemet | bresize => rfl
  | txfilt =>
    show txfiltEffect s.asAmi = (txfiltEffect s).asAmi
    unfold txfiltEffect
    rw [txholdEffect_asAmi, txshapeEffect_asAmi, apply_ite Completion.asAmi]
    rfl
  | txhold => exact txholdEffect_asAmi s
  | txshape => exact txshapeEffect_asAmi s
  | rxfilt =>
    rw [effectOf_rxfilt_ternary (.inr h), effectOf_rxfilt_ternary (s := s.asAmi) (.inl rfl)]
    exact rxsmoothEffect_asAmi s
  | rxmatch => exact rxmatchEffect_asAmi s
  | rxsmooth => exact rxsmoothEffect_asAmi s
  | rxmavg => exact rxmavgEffect_asAmi s
  | decim =>
    show decimEffect s.asAmi = (decimEffect s).asAmi
    rw [decimEffect, asAmi_writeY]
    rfl
  | recover =>
    show recoverEffect s.asAmi = (recoverEffect s).asAmi
    rw [recoverEffect, asAmi_searched, asAmi_writeY]
    rfl
  | thresh =>
    show threshEffect s.asAmi = (threshEffect s).asAmi
    rw [threshEffect, asAmi_thresholded h, asAmi_absSaturates h]
    rfl
  | decideBits =>
    show decideEffect s.asAmi = (decideEffect s).asAmi
    rw [decideEffect, asAmi_decodedBits h, asAmi_absSaturates h]
    rfl
  | decodeBits =>
    show decodeEffect s.asAmi = (decodeEffect s).asAmi
    rw [decodeEffect, asAmi_thresholded h, asAmi_absSaturates h, decideEffect, asAmi_decodedBits (s := s.thresholded) h]
    rfl

end

/-- Settles O48: no check and no effect tells the two apart, and what they leave differs in the field alone. -/
theorem hdb3BehavesAsAmi : Obligations.Hdb3BehavesAsAmi := by
  intro i s henc
  have h : s.enc = 3 := congrArg BitVec.toNat henc
  cases hb : s.status.busy with
  | true =>
    refine ⟨_, _, exec_busy hb, exec_busy (s := s.asAmi) hb, ?_⟩
    rw [asAmi_effectOf h]
    rfl
  | false =>
    refine ⟨_, _, exec_idle hb, exec_idle (s := s.asAmi) hb, ?_⟩
    rw [asAmi_acceptanceCheck h, asAmi_issue]
    rfl

end Sys2Proof.Machine

end
